-- ==== Sys2Proof/Word.lean ====
section
/-! DEFINITION. Word.lean: the widths the spec names (10_state.md R10, R21; 20_memory.md R31). -/

namespace Sys2Proof

/-- One byte: a step label (R59), or one transmitted byte (R56). -/
abbrev Byte := BitVec 8

/-- The ClockTime register `CT` (R11): 16 bits, unsigned. -/
abbrev ClockTime := BitVec 16

/-- The 44-bit one-hot Frame (R52), and the latched outputs `DISP` (R21). -/
abbrev Frame := BitVec 44

/-- The 48-bit transmit word (R53): the frame buffer `FB`, and the chain `SR` (R21). -/
abbrev TransmitWord := BitVec 48

/-- A one-bit level or flag; `true` is the spec's 1. -/
abbrev Level := Bool

end Sys2Proof
end

