-- ==== Sys2Proof/Syntax.lean ====
section
/-! DEFINITION. Syntax.lean: the step operations (one constructor per row of the opcode table) and the
enumerated data of the block. -/

namespace Sys2Proof

/-- The six step operations (00_scope.md R2, 30_encoding.md R60). -/
inductive Instr where
  /-- `TICK`, the 1 Hz tick handler (R125). -/
  | tick
  /-- `BUTTON`, one press of the mode button (R111). -/
  | button
  /-- `POLL a,b`, one poll of the encoder's channels A and B (R113). -/
  | poll (a b : Level)
  /-- `REFRESH`, the free-running re-encode (R96). -/
  | refresh
  /-- `TXB`, transmit one byte (R97). -/
  | txb
  /-- `DONE`, finish the cycle (R98). -/
  | done
  deriving DecidableEq, Repr

/-- The two execution contexts (60_exceptions.md R149). -/
inductive Context where
  | interrupt
  | main
  deriving DecidableEq, Repr

/-- Why a byte names no step (R61). -/
inductive LabelError where
  /-- There is no byte to read. -/
  | noLabel
  /-- `OPC` is 0x0 or 0x7..0xF. -/
  | unknownOpc
  /-- `label[3:2]` is not 0. -/
  | reservedBits
  /-- `label[1:0]` is not 0 in an operation other than POLL. -/
  | operandBits
  deriving DecidableEq, Repr

/-- The operating mode (R12): closed to four values. -/
inductive Mode where
  | freeRunning
  | editHours
  | editMins
  | editSecs
  deriving DecidableEq, Repr

/-- The direction of one detent (R58): closed to two values. -/
inductive Direction where
  | inc
  | dec
  deriving DecidableEq, Repr

/-- The phase of the main context, `MPH` (R17). -/
inductive Phase where
  | idle
  | tx
  deriving DecidableEq, Repr

/-- Why the frame in flight was produced, `ORG` (R19). -/
inductive Origin where
  | free
  | edit
  deriving DecidableEq, Repr, Inhabited

/-- DisplayDigits: six BCD digits of 4 bits each (R50). -/
structure Digits where
  h1 : BitVec 4
  h0 : BitVec 4
  m1 : BitVec 4
  m0 : BitVec 4
  s1 : BitVec 4
  s0 : BitVec 4
  deriving DecidableEq, Repr

/-- The output events (R65). -/
inductive Event where
  | txByte (b : Byte)
  | strobe
  | tickArm
  | tickDisable
  deriving DecidableEq, Repr

/-- The external collaborators that events go to and requests come from (R4 (b)). -/
inductive Collaborator where
  | tickSource
  | frameTransmitter
  | displayLatch
  | inputDevice
  deriving DecidableEq, Repr

/-- The event-level interface signals (R66). -/
inductive Signal where
  | tickIrq
  | buttonIrq
  | encA
  | encB
  | txReady
  | txData
  | latchStrobe
  | tickArm
  | tickDisable
  | bcdDigits
  deriving DecidableEq, Repr

/-- The pseudo-operations of a schedule's text (R64). `noPoll x` carries the level of channel B that its
poll sees, which the rule leaves either way. -/
inductive Pseudo where
  | send
  | cycle
  | second
  | press (n : Nat)
  | detentInc
  | detentDec
  | noPoll (x : Level)
  deriving DecidableEq, Repr

/-- One entry of a schedule's text (R63, R64). -/
inductive Item where
  | step (i : Instr)
  | pseudo (p : Pseudo)
  deriving DecidableEq, Repr

end Sys2Proof
end

