-- ==== Sys2Proof/Config.lean ====
section
/-! DEFINITION. Config.lean: the fixed constants of 00_scope.md R5, and what the spec leaves open: the
parameters of R6 and the contents that R27 leaves unspecified after reset, each an opaque constant. -/

namespace Sys2Proof.Config

/-- `PERIOD` (R5): the ClockTime modulus, seconds in 12 hours. -/
abbrev period : Nat := 43200

/-- `CT_MAX` (R5): the largest legal ClockTime. -/
abbrev ctMax : Nat := 43199

/-- `FRAME_BYTES` (R5): bytes in one transmitted frame. -/
abbrev frameBytes : Nat := 6

/-- `N_DIGITS` (R5): display digits H1, H0, M1, M0, S1, S0. -/
abbrev nDigits : Nat := 6

/-- `N_MODES` (R5). -/
abbrev nModes : Nat := 4

/-- `TICK_HZ` (R5): the TickSource's rate, in callbacks a second. The model has no time (R180). -/
abbrev tickHz : Nat := 1

/-- `FRAME_BITS` (R5): the sum of the six field widths of R52. -/
abbrev frameBits : Nat := 2 + 10 + 6 + 10 + 6 + 10

/-- `ENC_PHASE_INIT` (R6, R13, R27; decision D7): open, 0 or 1. DESIGN CHOICE: opaque; log entry 1. -/
opaque encPhaseInit : Level

/-- `FB` after reset: unspecified (R27, 93 U5). DESIGN CHOICE: opaque; log entry 2. -/
opaque fbInit : TransmitWord

/-- `TXI` after reset: unspecified (R27, 93 U5). DESIGN CHOICE: opaque; log entry 2. -/
opaque txiInit : BitVec 3

/-- `ORG` after reset: unspecified (R27, 93 U5). DESIGN CHOICE: opaque; log entry 2. -/
opaque orgInit : Origin

/-- `SR` after reset: unspecified (R36, 93 U6). DESIGN CHOICE: opaque; log entry 3. -/
opaque srInit : TransmitWord

/-- `DISP` after reset: unspecified (R36, 93 U6). DESIGN CHOICE: opaque; log entry 3. -/
opaque dispInit : Frame

/-- `LATCH_PULSE_MIN` (R6): an open duration that no rule's result depends on (R100, R180); log entry 12. -/
opaque latchPulseMin : Nat

/-- `T_BYTE` (R6): an open duration that no rule's result depends on (R99, R180); log entry 12. -/
opaque tByte : Nat

end Sys2Proof.Config
end

