-- ==== Sys2Proof/Machine/State.lean ====
section
/-! DEFINITION. Machine/State.lean: the state of the block, of the environment its properties mention, and of
the schedule that drives it; why a step can stop; the state after reset. -/

namespace Sys2Proof.Machine

/-- Why the machine has no transition. The block raises no exception (60_exceptions.md R140): each of these is
the spec's `stuck`, a legal label whose guard is false in the current state (R62, 93 U8), so that a schedule
holding it there is no execution. Each is SAFE: the model stops, and the real block makes no such step. -/
inductive Fault where
  /-- Raised by TICK where `TEN` = 0 (R125). Safe. -/
  | tickNotEnabled
  /-- Raised by POLL where `MPH` ≠ IDLE or `MODE` = FreeRunning (R113). Safe. -/
  | pollNotEnabled
  /-- Raised by REFRESH where `MPH` ≠ IDLE or `MODE` ≠ FreeRunning or `RDY` = 1 (R96). Safe. -/
  | refreshNotEnabled
  /-- Raised by TXB where `MPH` ≠ TX or `TXI` ≥ 6 (R97). Safe. -/
  | txbNotEnabled
  /-- Raised by DONE where `MPH` ≠ TX or `TXI` ≠ 6 (R98). Safe. -/
  | doneNotEnabled
  deriving DecidableEq, Repr

/-- Why the model gives no meaning (R140: only the case of R79, and reserved labels). -/
inductive Refusal where
  /-- For an arm of exec without a meaning; no arm is. Safe. -/
  | notModelled (mnemonic : String)
  /-- Raised by the step where the schedule's next byte names no step (R61, 93 U7). Safe. -/
  | reservedLabel (why : LabelError)
  /-- Raised by POLL where a detent meets `CT` ≥ 43200, for which no adjust function has a value (R79, R113
  (vii), 93 U2); unreachable from reset (R23). Safe. -/
  | adjustOutOfRange
  deriving DecidableEq, Repr

/-- The nine elements of R10, the two environment elements of R21, and the model's own two: the schedule still
to run and the record of the events emitted (log entries 4 and 6). -/
structure State where
  /-- `CT` (R11): seconds since 12:00:00. -/
  ct : ClockTime
  /-- `MODE` (R12). -/
  mode : Mode
  /-- `EPH` (R13): the level of channel A at the most recent POLL. -/
  eph : Level
  /-- `RDY` (R14): the ready flag. -/
  rdy : Level
  /-- `TEN` (R15): the TickSource is armed. -/
  ten : Level
  /-- `MPH` (R17): the phase of the main context. -/
  mph : Phase
  /-- `FB` (R16): the six bytes in flight. -/
  fb : TransmitWord
  /-- `TXI` (R18): the number of bytes already sent. -/
  txi : BitVec 3
  /-- `ORG` (R19): the origin of the frame in flight. -/
  org : Origin
  /-- `SR` (R21): the last 48 bits shifted into the chain. Environment; no step reads it but by a strobe. -/
  sr : TransmitWord
  /-- `DISP` (R21): the latched outputs, what the tubes show. Environment; no step reads it. -/
  disp : Frame
  /-- The step labels still to be taken, the next one first (R9, R59). The model's own. -/
  sched : List Byte
  /-- The output events emitted so far, oldest first (R8, R44, R65). The model's own. -/
  events : List Event
  deriving DecidableEq, Repr

/-- The state after reset (R27). Where R27 says open or unspecified the value is an opaque constant of Config
(log entries 1 to 3). Nothing is scheduled (log entry 5) and nothing has been emitted. -/
def State.reset : State :=
  { ct := 0
    mode := .freeRunning
    eph := Config.encPhaseInit
    rdy := false
    ten := true
    mph := .idle
    fb := Config.fbInit
    txi := Config.txiInit
    org := Config.orgInit
    sr := Config.srInit
    disp := Config.dispInit
    sched := []
    events := [] }

/-- What one step answers. -/
abbrev Result := Host.Outcome State Fault Refusal

end Sys2Proof.Machine
end

