-- ==== Sys2Proof/Machine/Flags.lean ====
section
/-! DEFINITION. Machine/Flags.lean: the one flag of the block, `RDY` (10_state.md R14, 44_tick_sync.md R126). -/

namespace Sys2Proof.Machine

/-- `RDY <- 0`, by TICK alone: "cleared by the ISR" (R126). -/
def clearReady (s : State) : State := { s with rdy := false }

/-- `RDY <- 1`, by DONE with `ORG` = FREE alone: "mark frame ready" (R98, R126). -/
def setReady (s : State) : State := { s with rdy := true }

end Sys2Proof.Machine
end

