-- ==== Sys2Proof/Machine/TimeCounter.lean ====
section
/-! DEFINITION. Machine/TimeCounter.lean: the component functions of 40_timecounter.md, on natural numbers
(00_scope.md R7). -/

namespace Sys2Proof.Machine

/-- `hours(t)` (R70). -/
def hoursOf (t : Nat) : Nat := t / 3600

/-- `mins(t)` (R70). -/
def minsOf (t : Nat) : Nat := (t / 60) % 60

/-- `secs(t)` (R70). -/
def secsOf (t : Nat) : Nat := t % 60

/-- `tick(t)` (R71): one second later, wrapping to 0 at 43200 and, for an out-of-range `t`, to 0. -/
def tick (t : Nat) : Nat := if t + 1 ≥ Config.period then 0 else t + 1

/-- One cyclic move of a field of modulus `n` (R72 to R74): the decrement adds `n - 1`, so that no
intermediate value is negative (R78). -/
def moveField (n : Nat) (d : Direction) (x : Nat) : Nat :=
  match d with
  | .inc => (x + 1) % n
  | .dec => (x + (n - 1)) % n

/-- The adjust functions are defined for `t` ≤ 43199 only (R79): beyond it, `none`, no value. -/
def onLegalTime (t t' : Nat) : Option Nat := if t < Config.period then some t' else none

/-- `adjustHour(t, dir)` (R72). -/
def adjustHour (t : Nat) (d : Direction) : Option Nat :=
  onLegalTime t (3600 * moveField 12 d (hoursOf t) + t % 3600)

/-- `adjustMinute(t, dir)` (R73). -/
def adjustMinute (t : Nat) (d : Direction) : Option Nat :=
  onLegalTime t ((t - 60 * minsOf t) + 60 * moveField 60 d (minsOf t))

/-- `adjustSecond(t, dir)` (R74). -/
def adjustSecond (t : Nat) (d : Direction) : Option Nat :=
  onLegalTime t ((t - secsOf t) + moveField 60 d (secsOf t))

end Sys2Proof.Machine
end

