-- ==== Sys2Proof/WellFormed.lean ====
section
/-! DEFINITION. WellFormed.lean: which instructions, step labels, schedules and digit tuples the spec
calls legal. -/

namespace Sys2Proof

/-- Every operand value of every step operation is legal: the levels of POLL are the only operands, and
both values of a level are levels (30_encoding.md R60, 60_exceptions.md R161). -/
def Instr.wf : Instr → Bool
  | .tick => true
  | .button => true
  | .poll _ _ => true
  | .refresh => true
  | .txb => true
  | .done => true

/-- The labels that name a step (R59, R61): `OPC` 1..6, `label[3:2]` = 0, and `label[1:0]` = 0 unless
`OPC` is 3. -/
def labelLegal (l : Byte) : Bool :=
  let opc := l.toNat / 16
  let low := l.toNat % 4
  decide (1 ≤ opc ∧ opc ≤ 6) && decide (l.toNat / 4 % 4 = 0) && (decide (opc = 3) || decide (low = 0))

/-- A schedule's bytes name a step each. -/
def scheduleLegal (ls : List Byte) : Bool := ls.all labelLegal

/-- The legal digit tuples (R50). -/
def Digits.wf (d : Digits) : Bool :=
  let hour := 10 * d.h1.toNat + d.h0.toNat
  decide (d.h1.toNat ≤ 1) && decide (d.h0.toNat ≤ 9) && decide (1 ≤ hour ∧ hour ≤ 12) &&
    decide (d.m1.toNat ≤ 5) && decide (d.m0.toNat ≤ 9) && decide (d.s1.toNat ≤ 5) && decide (d.s0.toNat ≤ 9)

end Sys2Proof
end

