-- ==== Sys2Proof/Machine/DigitEncoder.lean ====
section
/-! DEFINITION. Machine/DigitEncoder.lean: the pure functions of 41_digit_encoder.md and the Frame format of
30_encoding.md. -/

namespace Sys2Proof.Machine

/-- The displayed hour (R80, R81): hour field 0 is shown as 12. -/
def displayHour (t : Nat) : Nat := if hoursOf t = 0 then 12 else hoursOf t

/-- `digits(t)` (R80), for `t` ≤ 43199: each of hours, minutes and seconds split into tens and ones. -/
def digits (t : Nat) : Digits :=
  { h1 := BitVec.ofNat 4 (displayHour t / 10)
    h0 := BitVec.ofNat 4 (displayHour t % 10)
    m1 := BitVec.ofNat 4 (minsOf t / 10)
    m0 := BitVec.ofNat 4 (minsOf t % 10)
    s1 := BitVec.ofNat 4 (secsOf t / 10)
    s0 := BitVec.ofNat 4 (secsOf t % 10) }

/-- `onehot(d) = 1 << d` (R82), in the ten bits of the widest code. -/
def onehot (d : BitVec 4) : BitVec 10 := 1#10 <<< d.toNat

/-- `pack` (R83): the six one-hot codes, each cut to its field's width, H1 most significant (R52). -/
def pack (d : Digits) : Frame :=
  (onehot d.h1).setWidth 2 ++ onehot d.h0 ++ (onehot d.m1).setWidth 6 ++ onehot d.m0 ++
    (onehot d.s1).setWidth 6 ++ onehot d.s0

/-- `encode(t) = pack(digits(t))` (R85). -/
def encodeFrame (t : Nat) : Frame := pack (digits t)

/-- The transmit word of a Frame (R53): four zero bits above it. -/
def transmitWord (f : Frame) : TransmitWord := 0#4 ++ f

/-- `FB.byte(i) = FB[47-8i : 40-8i]` (R31, R56), for `i` in 0..5. -/
def frameByte (w : TransmitWord) (i : Nat) : Byte := w.extractLsb' (40 - 8 * i) 8

/-- `serialize(F)` (R84): the six bytes, most significant first (R32). -/
def serialize (f : Frame) : List Byte := (List.range Config.frameBytes).map (frameByte (transmitWord f))

/-- The six fields of a Frame (R52). -/
def fieldH1 (f : Frame) : BitVec 2 := f.extractLsb' 42 2
def fieldH0 (f : Frame) : BitVec 10 := f.extractLsb' 32 10
def fieldM1 (f : Frame) : BitVec 6 := f.extractLsb' 26 6
def fieldM0 (f : Frame) : BitVec 10 := f.extractLsb' 16 10
def fieldS1 (f : Frame) : BitVec 6 := f.extractLsb' 10 6
def fieldS0 (f : Frame) : BitVec 10 := f.extractLsb' 0 10

/-- The indices of the 1 bits of a field, lowest first. -/
def oneBits {w : Nat} (v : BitVec w) : List Nat := (List.range w).filter (fun i => v.getLsbD i)

/-- `popcount(v)` (00_scope.md R7): the number of 1 bits. -/
def popcount {w : Nat} (v : BitVec w) : Nat := (oneBits v).length

/-- `pos(X)` (R87): the index of the field's single 1 bit; none where it has no bit or several. -/
def fieldPos {w : Nat} (v : BitVec w) : Option (BitVec 4) :=
  match oneBits v with
  | [i] => some (BitVec.ofNat 4 i)
  | _ => none

/-- `decode(F)` (R87): the digits of a legal Frame, none on any other (R54, 93 U10). -/
def decodeFrame (f : Frame) : Option Digits :=
  match fieldPos (fieldH1 f), fieldPos (fieldH0 f), fieldPos (fieldM1 f), fieldPos (fieldM0 f),
      fieldPos (fieldS1 f), fieldPos (fieldS0 f) with
  | some h1, some h0, some m1, some m0, some s1, some s0 =>
    if (Digits.mk h1 h0 m1 m0 s1 s0).wf then some ⟨h1, h0, m1, m0, s1, s0⟩ else none
  | _, _, _, _, _, _ => none

/-- The observation `bcd_digits` (R66, R91): `digits(t)` of a snapshot `t`, 24 bits, h1 most significant. -/
def bcdDigits (t : Nat) : BitVec 24 :=
  let d := digits t
  d.h1 ++ d.h0 ++ d.m1 ++ d.m0 ++ d.s1 ++ d.s0

end Sys2Proof.Machine
end

