-- ==== Sys2Proof/Machine/Ops.lean ====
section
/-! DEFINITION. Machine/Ops.lean: the operations the step meanings share.

There is no addressable memory and no exception to take (20_memory.md R30, 60_exceptions.md R140); the one
control transfer is interrupt entry and return, `inInterrupt`. -/

namespace Sys2Proof.Machine

/-- `guard: P` (00_scope.md R8): where `P` does not hold the step has no transition. -/
def guarded (p : Prop) [Decidable p] (stop : Fault) (r : Result) : Result :=
  if p then r else .fault stop

/-- Interrupt entry, handler, return (R147, R148): the handler runs to completion with all other interrupts
masked; entry saves and stacks nothing of the block's state and return restores nothing, so the main context
is where it was. -/
def inInterrupt (handler : State → State) (s : State) : Result := .next (handler s)

/-- `SR <- SR[39:0] ++ b` (R33). -/
def shiftIn (sr : TransmitWord) (b : Byte) : TransmitWord := sr.extractLsb' 0 40 ++ b

/-- What an output event does to the environment (R33, R35). `TICK_ARM` and `TICK_DISABLE` act on the
TickSource, whose interval is time, which the model has not (R133, R151). -/
def deliver (e : Event) (s : State) : State :=
  match e with
  | .txByte b => { s with sr := shiftIn s.sr b }
  | .strobe => { s with disp := s.sr.extractLsb' 0 44 }
  | .tickArm => s
  | .tickDisable => s

/-- `emit E` (R8, R44): the event reaches its collaborator and is recorded, after every earlier one. -/
def emit (e : Event) (s : State) : State :=
  let s' := deliver e s
  { s' with events := s'.events ++ [e] }

/-- The snapshot `t` of `encode_op` (R86): `CT` after the clamp. -/
def snapshot (s : State) : Nat := if s.ct.toNat ≥ Config.period then 0 else s.ct.toNat

/-- The clamp of `encode_op` (R86): `CT <- 0` where `CT` ≥ 43200. -/
def clampClock (s : State) : State := if s.ct.toNat ≥ Config.period then { s with ct := 0 } else s

/-- `encode_op` (R86): the clamp, one snapshot, `FB <- zext_48(encode(t))`. -/
def encodeOp (s : State) : State :=
  { clampClock s with fb := transmitWord (encodeFrame (snapshot s)) }

/-- `encode_op` and the start of a transmission (R96, R113): `TXI <- 0`, `ORG`, `MPH <- TX`. -/
def loadFrame (o : Origin) (s : State) : State :=
  { encodeOp s with txi := 0, org := o, mph := .tx }

/-- `FB.byte(TXI)` (R31, R97). -/
def currentByte (s : State) : Byte := frameByte s.fb s.txi.toNat

end Sys2Proof.Machine
end

