-- ==== Sys2Proof/Machine/FrameSerializer.lean ====
section
/-! DEFINITION. Machine/FrameSerializer.lean: the steps REFRESH, TXB and DONE (42_frame_serializer.md). -/

namespace Sys2Proof.Machine

/-- `REFRESH` (R96), guard `MPH` = IDLE and `MODE` = FreeRunning and `RDY` = 0. -/
def execRefresh (s : State) : Result :=
  guarded (s.mph = .idle ∧ s.mode = .freeRunning ∧ s.rdy = false) .refreshNotEnabled
    (.next (loadFrame .free s))

/-- `TXB` (R97), guard `MPH` = TX and `TXI` < 6: one byte is handed over. The wait for the transmitter is no
state: the step is the completed hand-over (R99). -/
def execTxb (s : State) : Result :=
  guarded (s.mph = .tx ∧ s.txi.toNat < Config.frameBytes) .txbNotEnabled
    (.next { emit (.txByte (currentByte s)) s with txi := s.txi + 1 })

/-- What ends a transmission, by the origin recorded when `FB` was loaded (R98). -/
def finishFrame (s : State) : State :=
  match s.org with
  | .free => setReady s
  | .edit => emit .strobe s

/-- `DONE` (R98), guard `MPH` = TX and `TXI` = 6. -/
def execDone (s : State) : Result :=
  guarded (s.mph = .tx ∧ s.txi.toNat = Config.frameBytes) .doneNotEnabled
    (.next { finishFrame s with mph := .idle })

end Sys2Proof.Machine
end

