-- ==== Sys2Proof/Machine/Operands.lean ====
section
/-! DEFINITION. Machine/Operands.lean: the operands of POLL and what they select (43_mode_controller.md R112 to
R114), and the numeric codes of the enumerated state (30_encoding.md R57, R58). -/

namespace Sys2Proof.Machine

/-- `MODE` as its 2-bit code (R57). -/
def modeCode : Mode → BitVec 2
  | .freeRunning => 0
  | .editHours => 1
  | .editMins => 2
  | .editSecs => 3

/-- The mode of a 2-bit code; every code is a mode (R57). -/
def modeOfCode (c : BitVec 2) : Mode :=
  match c.toNat with
  | 0 => .freeRunning
  | 1 => .editHours
  | 2 => .editMins
  | _ => .editSecs

/-- A direction as its 1-bit code (R58). -/
def directionCode : Direction → BitVec 1
  | .inc => 0
  | .dec => 1

/-- `MPH` as its 1-bit code (R17). -/
def phaseCode : Phase → BitVec 1
  | .idle => 0
  | .tx => 1

/-- `ORG` as its 1-bit code (R19). -/
def originCode : Origin → BitVec 1
  | .free => 0
  | .edit => 1

/-- `direction(a, b)` (R112): INC where the two levels differ, DEC where they match. -/
def direction (a b : Level) : Direction := if a ≠ b then .inc else .dec

/-- A detent: channel A's level differs from its previous sample; channel B alone never makes one (R113). -/
def detent (eph a : Level) : Bool := a != eph

/-- The adjust function of the field under edit (R114); in FreeRunning no field is under edit. -/
def adjustField (m : Mode) (t : Nat) (d : Direction) : Option Nat :=
  match m with
  | .freeRunning => none
  | .editHours => adjustHour t d
  | .editMins => adjustMinute t d
  | .editSecs => adjustSecond t d

end Sys2Proof.Machine
end

