-- ==== Sys2Proof/Machine/ModeController.lean ====
section
/-! DEFINITION. Machine/ModeController.lean: the steps BUTTON and POLL (43_mode_controller.md). -/

namespace Sys2Proof.Machine

/-- `nextMode(m)` (R110): the cycle of the four modes. -/
def nextMode (m : Mode) : Mode := modeOfCode (modeCode m + 1)

/-- Leaving FreeRunning (R111): `TEN <- 0` and `TICK_DISABLE`. -/
def disarmTick (s : State) : State := emit .tickDisable { s with ten := false }

/-- Entering FreeRunning (R111): `TEN <- 1` and `TICK_ARM`. -/
def armTick (s : State) : State := emit .tickArm { s with ten := true }

/-- The button handler (R111): the mode advances; the TickSource is reconfigured where the old mode or the new
one is FreeRunning, which are never both. -/
def buttonHandler (s : State) : State :=
  let old := s.mode
  let new := nextMode old
  let s1 := { s with mode := new }
  let s2 := if old = .freeRunning then disarmTick s1 else s1
  if new = .freeRunning then armTick s2 else s2

/-- `BUTTON` (R111): always enabled. -/
def execButton (s : State) : Result := inInterrupt buttonHandler s

/-- A poll that sees a detent (R113): the field under edit is adjusted, the adjusted time is encoded and its
transmission begins. Where the adjust function has no value (R79) the model gives no meaning. -/
def pollDetent (a b : Level) (s : State) : Result :=
  match adjustField s.mode s.ct.toNat (direction a b) with
  | none => .refused .adjustOutOfRange
  | some t => .next { loadFrame .edit { s with ct := BitVec.ofNat 16 t } with eph := a }

/-- `POLL a,b` (R113), guard `MPH` = IDLE and `MODE` ≠ FreeRunning; one atomic step (R45). -/
def execPoll (a b : Level) (s : State) : Result :=
  guarded (s.mph = .idle ∧ s.mode ≠ .freeRunning) .pollNotEnabled
    (if detent s.eph a then pollDetent a b s else .next { s with eph := a })

end Sys2Proof.Machine
end

