-- ==== Sys2Proof/Machine/TickSync.lean ====
section
/-! DEFINITION. Machine/TickSync.lean: the step TICK (44_tick_sync.md R125). -/

namespace Sys2Proof.Machine

/-- The tick handler (R125): increment, strobe, clear the ready flag. -/
def tickHandler (s : State) : State :=
  clearReady (emit .strobe { s with ct := BitVec.ofNat 16 (tick s.ct.toNat) })

/-- `TICK` (R125), guard `TEN` = 1. The strobe is unconditional: it looks at neither `MPH` nor `TXI`. -/
def execTick (s : State) : Result :=
  guarded (s.ten = true) .tickNotEnabled (inInterrupt tickHandler s)

end Sys2Proof.Machine
end

