-- ==== Sys2Proof/Machine/Dispatch.lean ====
section
/-! DEFINITION. Machine/Dispatch.lean: one arm per step operation. -/

namespace Sys2Proof.Machine

def exec (i : Instr) (s : State) : Host.Outcome State Fault Refusal :=
  match i with
  | .tick => Sys2Proof.Machine.execTick s
  | .button => Sys2Proof.Machine.execButton s
  | .poll a b => Sys2Proof.Machine.execPoll a b s
  | .refresh => Sys2Proof.Machine.execRefresh s
  | .txb => Sys2Proof.Machine.execTxb s
  | .done => Sys2Proof.Machine.execDone s

end Sys2Proof.Machine
end

