-- ==== Sys2Proof/Decode.lean ====
section
/-! DEFINITION. Decode.lean: the step-label word (30_encoding.md R59 to R61), read and written. -/

namespace Sys2Proof

/-- `OPC = label[7:4]` (R59). -/
def labelOpc (l : Byte) : BitVec 4 := l.extractLsb' 4 4

/-- `label[3:2]`, reserved, must be zero (R59). -/
def labelReserved (l : Byte) : BitVec 2 := l.extractLsb' 2 2

/-- `label[1:0]`, the operand bits (R59). -/
def labelOperands (l : Byte) : BitVec 2 := l.extractLsb' 0 2

/-- `a = label[1]` (R59). -/
def labelA (l : Byte) : Level := l.getLsbD 1

/-- `b = label[0]` (R59). -/
def labelB (l : Byte) : Level := l.getLsbD 0

/-- An operation without operands: its operand bits must be zero (R59). -/
def withoutOperands (l : Byte) (i : Instr) : Except LabelError Instr :=
  if labelOperands l = 0 then .ok i else .error .operandBits

/-- The operation that `OPC` names (R60), with the operand bits it takes. -/
def decodeOpc (l : Byte) : Except LabelError Instr :=
  match (labelOpc l).toNat with
  | 1 => withoutOperands l .tick
  | 2 => withoutOperands l .button
  | 3 => .ok (.poll (labelA l) (labelB l))
  | 4 => withoutOperands l .refresh
  | 5 => withoutOperands l .txb
  | 6 => withoutOperands l .done
  | _ => .error .unknownOpc

/-- One label byte (R59 to R61): every byte that R60 does not list is rejected, by name. -/
def decodeLabel (l : Byte) : Except LabelError Instr :=
  if labelReserved l = 0 then decodeOpc l else .error .reservedBits

/-- The first step of a schedule's bytes, and the bytes that follow. -/
def decode : List Byte → Except LabelError (Instr × List Byte)
  | [] => .error .noLabel
  | l :: rest =>
    match decodeLabel l with
    | .ok i => .ok (i, rest)
    | .error e => .error e

/-- The step-label word of format STEP8 (R59): `OPC`, two zero bits, `a`, `b`. -/
def stepWord (opc : BitVec 4) (a b : Level) : Byte :=
  opc ++ 0#2 ++ BitVec.ofBool a ++ BitVec.ofBool b

/-- The label of a step (R60). -/
def encodeLabel : Instr → Byte
  | .tick => stepWord 1#4 false false
  | .button => stepWord 2#4 false false
  | .poll a b => stepWord 3#4 a b
  | .refresh => stepWord 4#4 false false
  | .txb => stepWord 5#4 false false
  | .done => stepWord 6#4 false false

/-- The bytes of one step. -/
def encode (i : Instr) : List Byte := [encodeLabel i]

/-- The bytes of a schedule (R59 (i), R63). -/
def encodeSchedule (is : List Instr) : List Byte := is.map encodeLabel

/-- The context column of R60. -/
def Instr.context : Instr → Context
  | .tick => .interrupt
  | .button => .interrupt
  | .poll _ _ => .main
  | .refresh => .main
  | .txb => .main
  | .done => .main

/-- The bytes of a table word: labels are one byte long, so one byte, whose bits from `nbits` on are 0. -/
def tableBytes (nbits w : Nat) : List Byte := [BitVec.ofNat 8 (w % 2 ^ nbits)]

/-- What the decoder reads from a table word. -/
def decodeTableWord (nbits w : Nat) : Option Instr :=
  match decode (tableBytes nbits w) with
  | .ok (i, _) => some i
  | .error _ => none

end Sys2Proof
end

