-- ==== Sys2Proof/Machine/Schedule.lean ====
section
/-! DEFINITION. Machine/Schedule.lean: which step comes next. The block fetches no instructions (00_scope.md
R2): what moves next is the schedule's next label (R9, R59), and where none is placed the main loop goes on by
itself (20_memory.md R43; log entry 5). -/

namespace Sys2Proof.Machine

/-- The main context's next step by its own program order (R43, R95), in an environment that presents nothing
new: a poll sees channel A at its previous level (NOPOLL, R64). None is an idle iteration (R102). -/
def mainNext (s : State) : Option Instr :=
  match s.mph with
  | .idle =>
    match s.mode with
    | .freeRunning => if s.rdy then none else some .refresh
    | .editHours => some (.poll s.eph s.eph)
    | .editMins => some (.poll s.eph s.eph)
    | .editSecs => some (.poll s.eph s.eph)
  | .tx =>
    if s.txi.toNat < Config.frameBytes then some .txb
    else if s.txi.toNat = Config.frameBytes then some .done
    else none

/-- The next step and the schedule after it: the schedule's first label, or, where nothing is scheduled, the
main loop's own next step (none: an idle iteration). -/
def fetch (s : State) : Except LabelError (Option Instr × List Byte) :=
  match s.sched with
  | [] => .ok (mainNext s, [])
  | l :: rest =>
    match decode (l :: rest) with
    | .ok (i, rest') => .ok (some i, rest')
    | .error e => .error e

/-- Labels put in front of the schedule. -/
def placeLabels (ls : List Byte) (s : State) : State := { s with sched := ls ++ s.sched }

end Sys2Proof.Machine
end

