-- ==== Sys2Proof/Machine/Step.lean ====
section
/-! DEFINITION. Machine/Step.lean: one step of the machine. -/

namespace Sys2Proof.Machine

/-- One atomic step (20_memory.md R40, R42): the next step operation is taken off the schedule and runs; an
idle iteration changes nothing (R102); a byte that names no step is refused (R61). -/
def step (s : State) : Host.Outcome State Fault Refusal :=
  match fetch s with
  | .error e => .refused (.reservedLabel e)
  | .ok (none, rest) => .next { s with sched := rest }
  | .ok (some i, rest) => exec i { s with sched := rest }

/-- `s` with the label of a table word placed as the schedule's next label. -/
def State.withFetchWord (s : State) (nbits w : Nat) : State := placeLabels (tableBytes nbits w) s

end Sys2Proof.Machine
end

