-- ==== Sys2Proof/Machine/Assembler.lean ====
section
/-! DEFINITION. Machine/Assembler.lean: the text of schedules (30_encoding.md R63) and the pseudo-operations
(R64). -/

namespace Sys2Proof.Machine

/-- `SEND` (R64): one frame's six bytes. -/
def sendSteps : List Instr := List.replicate 6 .txb

/-- The expansion of a pseudo-operation (R64) where `EPH` is `e`. -/
def expandPseudo (e : Level) : Pseudo → List Instr
  | .send => sendSteps
  | .cycle => [.refresh] ++ sendSteps ++ [.done]
  | .second => [.tick, .refresh] ++ sendSteps ++ [.done]
  | .press n => List.replicate n .button
  | .detentInc => [.poll (!e) e] ++ sendSteps ++ [.done]
  | .detentDec => [.poll (!e) (!e)] ++ sendSteps ++ [.done]
  | .noPoll x => [.poll e x]

/-- `EPH` after a step that was enabled (R13): every POLL writes it. -/
def ephAfter (e : Level) : Instr → Level
  | .tick => e
  | .button => e
  | .poll a _ => a
  | .refresh => e
  | .txb => e
  | .done => e

/-- One entry's steps where `EPH` is `e`. -/
def expandItem (e : Level) : Item → List Instr
  | .step i => [i]
  | .pseudo p => expandPseudo e p

/-- A schedule's steps where `EPH` is `e` at its start. -/
def expandItems : Level → List Item → List Instr
  | _, [] => []
  | e, it :: rest =>
    let is := expandItem e it
    is ++ expandItems (is.foldl ephAfter e) rest

/-- Text without its comments: from a `#` to the end of its line. -/
def stripComments : Bool → List Char → List Char
  | _, [] => []
  | inComment, c :: cs =>
    if c = '\n' then c :: stripComments false cs
    else if inComment || c = '#' then stripComments true cs
    else c :: stripComments false cs

/-- Text cut at every character that `p` accepts. -/
def splitAt (p : Char → Bool) : List Char → List (List Char)
  | [] => [[]]
  | c :: cs =>
    if p c then [] :: splitAt p cs
    else
      match splitAt p cs with
      | [] => [[c]]
      | w :: ws => (c :: w) :: ws

/-- Commas made tokens of their own. -/
def spaceCommas : List Char → List Char
  | [] => []
  | c :: cs => if c = ',' then ' ' :: ',' :: ' ' :: spaceCommas cs else c :: spaceCommas cs

/-- The tokens of one entry. -/
def tokens (cs : List Char) : List (List Char) :=
  (splitAt (fun c => c = ' ' || c = '\t') (spaceCommas cs)).filter (fun w => !w.isEmpty)

/-- A decimal digit's value. -/
def digitValue (c : Char) : Option Nat :=
  if 48 ≤ c.toNat ∧ c.toNat ≤ 57 then some (c.toNat - 48) else none

/-- A decimal number. -/
def numberFrom : Nat → List Char → Option Nat
  | acc, [] => some acc
  | acc, c :: cs =>
    match digitValue c with
    | some d => numberFrom (10 * acc + d) cs
    | none => none

/-- A decimal number of at least one digit. -/
def number (cs : List Char) : Option Nat := if cs.isEmpty then none else numberFrom 0 cs

/-- An operand of POLL: `0` or `1` (R63). -/
def levelToken : List Char → Option Level
  | ['0'] => some false
  | ['1'] => some true
  | _ => none

/-- One entry without its repeat count. -/
def parseItem : List (List Char) → Option Item
  | [['T', 'I', 'C', 'K']] => some (.step .tick)
  | [['B', 'U', 'T', 'T', 'O', 'N']] => some (.step .button)
  | [['P', 'O', 'L', 'L'], a, [','], b] =>
    match levelToken a, levelToken b with
    | some a, some b => some (.step (.poll a b))
    | _, _ => none
  | [['R', 'E', 'F', 'R', 'E', 'S', 'H']] => some (.step .refresh)
  | [['T', 'X', 'B']] => some (.step .txb)
  | [['D', 'O', 'N', 'E']] => some (.step .done)
  | [['S', 'E', 'N', 'D']] => some (.pseudo .send)
  | [['C', 'Y', 'C', 'L', 'E']] => some (.pseudo .cycle)
  | [['S', 'E', 'C', 'O', 'N', 'D']] => some (.pseudo .second)
  | [['P', 'R', 'E', 'S', 'S'], n] => (number n).map (fun n => .pseudo (.press n))
  | [['D', 'E', 'T', 'E', 'N', 'T', '+']] => some (.pseudo .detentInc)
  | [['D', 'E', 'T', 'E', 'N', 'T', '-']] => some (.pseudo .detentDec)
  | [['N', 'O', 'P', 'O', 'L', 'L']] => some (.pseudo (.noPoll false))
  | _ => none

/-- A trailing `xN` (R63). -/
def repeatToken : List Char → Option Nat
  | 'x' :: n => number n
  | _ => none

/-- One entry: an operation, repeated by a trailing `xN`. -/
def parseEntry (ts : List (List Char)) : Option (List Item) :=
  match ts.getLast?.bind repeatToken with
  | some n => (parseItem ts.dropLast).map (List.replicate n)
  | none => (parseItem ts).map (fun it => [it])

/-- All entries, in order; empty ones are skipped. -/
def parseEntries : List (List Char) → Option (List Item)
  | [] => some []
  | e :: es =>
    let ts := tokens e
    if ts.isEmpty then parseEntries es
    else
      match parseEntry ts, parseEntries es with
      | some a, some b => some (a ++ b)
      | _, _ => none

/-- A schedule's text (R63): one step a line or separated by `;`, `#` starting a comment. -/
def parseSchedule (text : List Char) : Option (List Item) :=
  parseEntries (splitAt (fun c => c = '\n' || c = ';') (stripComments false text))

/-- The label bytes of a schedule's text where `EPH` is `e` at its start. -/
def assemble (e : Level) (text : List Char) : Option (List Byte) :=
  (parseSchedule text).map (fun items => encodeSchedule (expandItems e items))

end Sys2Proof.Machine
end

