-- ==== Sys2Proof/Machine/Interface.lean ====
section
/-! DEFINITION. Machine/Interface.lean: what the block exchanges with its collaborators, as names
(30_encoding.md R65, R66; 60_exceptions.md R142). -/

namespace Sys2Proof.Machine

/-- The collaborator that receives an event (R65). -/
def eventTarget : Event → Collaborator
  | .txByte _ => .frameTransmitter
  | .strobe => .displayLatch
  | .tickArm => .tickSource
  | .tickDisable => .tickSource

/-- The output signal that carries an event (R66). -/
def eventSignal : Event → Signal
  | .txByte _ => .txData
  | .strobe => .latchStrobe
  | .tickArm => .tickArm
  | .tickDisable => .tickDisable

/-- The input signals whose arrival or level a step is (R66). -/
def stepInputs : Instr → List Signal
  | .tick => [.tickIrq]
  | .button => [.buttonIrq]
  | .poll _ _ => [.encA, .encB]
  | .refresh => []
  | .txb => [.txReady]
  | .done => []

/-- The data bits of a signal (R66); an event signal carries none. -/
def signalWidth : Signal → Nat
  | .tickIrq => 0
  | .buttonIrq => 0
  | .encA => 1
  | .encB => 1
  | .txReady => 1
  | .txData => 8
  | .latchStrobe => 0
  | .tickArm => 0
  | .tickDisable => 0
  | .bcdDigits => 24

/-- The source of an interrupt-context step's request (R142); main-context steps have none. -/
def requestSource : Instr → Option Collaborator
  | .tick => some .tickSource
  | .button => some .inputDevice
  | .poll _ _ => none
  | .refresh => none
  | .txb => none
  | .done => none

/-- The levels of the observation port `bcd_digits` for an encode in state `s` (R66, R91): the digits of that
encode's snapshot, held by no register. -/
def bcdPort (s : State) : BitVec 24 := bcdDigits (snapshot s)

end Sys2Proof.Machine
end

