-- ==== Sys2Proof/Machine/Execution.lean ====
section
/-! DEFINITION. Machine/Execution.lean: a schedule as a sequence of steps (00_scope.md R9). -/

namespace Sys2Proof.Machine

/-- The steps of a schedule one after another. The schedule is an execution from `s` exactly where this
answers a next state (R9): every step is enabled in the state the earlier ones produce. -/
def execAll : List Instr → State → Result
  | [], s => .next s
  | i :: is, s =>
    match exec i s with
    | .next t => execAll is t
    | .fault f => .fault f
    | .refused r => .refused r

end Sys2Proof.Machine
end

