-- ==== Sys2Proof/Safety.lean ====
section
/-! DEFINITION. Safety.lean: the invariants of 10_state.md section 5, the chain invariant of 44_tick_sync.md
R128, and the named premises of 70_reset_and_hazards.md R179, in the terms claims use. -/

namespace Sys2Proof.Machine

/-- R23: `CT` ≤ 43199. -/
abbrev RangeInv (s : State) : Prop := s.ct.toNat ≤ 43199

/-- R24: `TEN` = 1 if and only if `MODE` = FreeRunning. -/
abbrev TickGated (s : State) : Prop := s.ten = true ↔ s.mode = .freeRunning

/-- R25: during a transmission `TXI` ≤ 6 and `FB` is the transmit word of a legal ClockTime's frame. -/
def SequencerInv (s : State) : Prop :=
  s.mph = .tx → s.txi.toNat ≤ 6 ∧ ∃ t ≤ 43199, s.fb = transmitWord (encodeFrame t)

/-- The invariants of every reachable state (R23, R24, R25). -/
def StateInv (s : State) : Prop := RangeInv s ∧ TickGated s ∧ SequencerInv s

/-- The low `8 * TXI` bits of the chain are the bytes of `FB` sent so far (R33, R97). -/
abbrev SentBytes (s : State) : Prop :=
  s.sr.toNat % 2 ^ (8 * s.txi.toNat) = s.fb.toNat / 2 ^ (48 - 8 * s.txi.toNat)

/-- The chain invariant of R128 (`MPH` = IDLE and `RDY` = 1 imply `SR[43:0]` = `encode(CT)`), with what carries
it through a transmission: the frame in flight is that of `CT`, and the bytes sent are in the chain. -/
def ChainInv (s : State) : Prop :=
  (s.mph = .idle → s.rdy = true → s.sr.extractLsb' 0 44 = encodeFrame s.ct.toNat) ∧
    (s.mph = .tx → s.fb = transmitWord (encodeFrame s.ct.toNat) ∧ SentBytes s)

/-- `RefreshBeforeTick` (R130) for one step: at a TICK, `MPH` = IDLE and `RDY` = 1. -/
abbrev RefreshedAt (i : Instr) (s : State) : Prop := i = .tick → s.mph = .idle ∧ s.rdy = true

/-- `RefreshBeforeTick` (R130) for a schedule run from `s`: at every TICK of it. -/
def RefreshBeforeTick : List Instr → State → Prop
  | [], _ => True
  | i :: is, s => RefreshedAt i s ∧ ∀ t, exec i s = .next t → RefreshBeforeTick is t

/-- The step has a transition in `s` (R8). -/
def Enabled (i : Instr) (s : State) : Prop := ∃ t, exec i s = .next t

/-- The guard column of the opcode table, in terms of the state alone. -/
def guardHolds (i : Instr) (s : State) : Prop :=
  match i with
  | .tick => s.ten = true
  | .button => True
  | .poll _ _ => s.mph = .idle ∧ s.mode ≠ .freeRunning
  | .refresh => s.mph = .idle ∧ s.mode = .freeRunning ∧ s.rdy = false
  | .txb => s.mph = .tx ∧ s.txi.toNat < 6
  | .done => s.mph = .tx ∧ s.txi.toNat = 6

/-- What an event does to the pair `SR`, `DISP` of the environment (R33, R35). -/
def replayEvent (env : TransmitWord × Frame) : Event → TransmitWord × Frame
  | .txByte b => (env.1.extractLsb' 0 40 ++ b, env.2)
  | .strobe => (env.1, env.1.extractLsb' 0 44)
  | .tickArm => env
  | .tickDisable => env

/-- An infinite execution: the states, and the step taken in each (R179: a run never ends). -/
def IsRun (states : Nat → State) (steps : Nat → Instr) : Prop :=
  ∀ n, exec (steps n) (states n) = .next (states (n + 1))

/-- `TxEventuallyReady` (R99): whenever `MPH` = TX and `TXI` < 6, a TXB step eventually occurs. -/
def TxEventuallyReady (states : Nat → State) (steps : Nat → Instr) : Prop :=
  ∀ n, (states n).mph = .tx → (states n).txi.toNat < 6 → ∃ m, n ≤ m ∧ steps m = .txb

/-- `MainProgress` (R179): when a main-context step is enabled the main loop eventually takes one. -/
def MainProgress (states : Nat → State) (steps : Nat → Instr) : Prop :=
  ∀ n, (∃ i, i.context = .main ∧ Enabled i (states n)) → ∃ m, n ≤ m ∧ (steps m).context = .main

/-- `TickDelivered` (R179): while `TEN` = 1, TICK steps keep coming. -/
def TickDelivered (states : Nat → State) (steps : Nat → Instr) : Prop :=
  ∀ n, (states n).ten = true → ∃ m, n ≤ m ∧ (steps m = .tick ∨ (states m).ten = false)

end Sys2Proof.Machine
end

