-- ==== Sys2Proof/Certificates/Slice0/Obligations.lean ====
section
/-! DEFINITION. Certificates/Slice0/Obligations.lean: the statements for the provers. -/

open Sys2Proof Sys2Proof.Machine

/-! ### Step labels and the step -/

/-- R60: the nine legal labels, each with the step and the context that the map gives it, and no others. -/
def Obligations.StepLabelMap : Prop :=
  decodeLabel 0b00010000#8 = .ok .tick ∧ decodeLabel 0b00100000#8 = .ok .button ∧
  decodeLabel 0b00110000#8 = .ok (.poll false false) ∧ decodeLabel 0b00110001#8 = .ok (.poll false true) ∧
  decodeLabel 0b00110010#8 = .ok (.poll true false) ∧ decodeLabel 0b00110011#8 = .ok (.poll true true) ∧
  decodeLabel 0b01000000#8 = .ok .refresh ∧ decodeLabel 0b01010000#8 = .ok .txb ∧
  decodeLabel 0b01100000#8 = .ok .done ∧
  Instr.tick.context = .interrupt ∧ Instr.button.context = .interrupt ∧
  (∀ a b, (Instr.poll a b).context = .main) ∧ Instr.refresh.context = .main ∧
  Instr.txb.context = .main ∧ Instr.done.context = .main ∧
  ∀ l : Byte, (∃ i, decodeLabel l = .ok i) ↔
    l ∈ [0x10#8, 0x20#8, 0x30#8, 0x31#8, 0x32#8, 0x33#8, 0x40#8, 0x50#8, 0x60#8]

/-- R61: every other byte is rejected by the decoder, and the step refuses a schedule that begins with it. -/
def Obligations.ReservedLabelsAreRefused : Prop :=
  ∀ l : Byte,
    l ∉ [0x10#8, 0x20#8, 0x30#8, 0x31#8, 0x32#8, 0x33#8, 0x40#8, 0x50#8, 0x60#8] →
    ∃ e, decodeLabel l = .error e ∧
      ∀ (s : State) (rest : List Byte), s.sched = l :: rest → step s = .refused (.reservedLabel e)

/-- R59, R60: the decoder reads back what the encoder writes, and whatever it reads is what the encoder writes. -/
def Obligations.LabelsRoundTrip : Prop :=
  (∀ (i : Instr) (rest : List Byte), i.wf = true → decode (encode i ++ rest) = .ok (i, rest)) ∧
  (∀ (ls : List Byte) (i : Instr) (rest : List Byte), decode ls = .ok (i, rest) → ls = encode i ++ rest)

/-- A step takes the schedule's first label off and runs the step operation it decodes to; in particular a
label placed by `withFetchWord` runs next. -/
def Obligations.StepRunsScheduledLabel : Prop :=
  (∀ (s : State) (i : Instr) (rest : List Byte),
    decode s.sched = .ok (i, rest) → step s = exec i { s with sched := rest }) ∧
  (∀ (s : State) (i : Instr) (rest : List Byte), i.wf = true →
    s.sched = encode i ++ rest → step s = exec i { s with sched := rest }) ∧
  (∀ (s : State) (i : Instr), i.wf = true → step (s.withFetchWord 8 (encodeLabel i).toNat) = exec i s)

/-- The model's choice (log entry 5): with nothing scheduled the main loop takes its own next step in the order
of R43, a poll seeing channel A unchanged, and otherwise idles. -/
def Obligations.QuietScheduleRunsMainLoop : Prop :=
  ∀ s : State, s.sched = [] →
    (s.mph = .idle → s.mode = .freeRunning → s.rdy = false → step s = exec .refresh s) ∧
    (s.mph = .idle → s.mode = .freeRunning → s.rdy = true → step s = .next s) ∧
    (s.mph = .idle → s.mode ≠ .freeRunning → step s = .next s) ∧
    (s.mph = .tx → s.txi.toNat < 6 → step s = exec .txb s) ∧
    (s.mph = .tx → s.txi.toNat = 6 → step s = exec .done s)

/-- Running the machine over the bytes of a schedule is running its steps one after another. -/
def Obligations.ScheduleBytesRunAsSteps : Prop :=
  ∀ (is : List Instr) (s : State) (rest : List Byte), s.sched = encodeSchedule is ++ rest →
    Host.Core.run Sys2Proof.core is.length s = execAll is { s with sched := rest }

/-! ### The six steps -/

/-- R125: TICK, whole: label, context, guard, effect. In this and the next five statements the events a step
emits are those it appends to `events`. -/
def Obligations.TickStep : Prop :=
  decodeLabel 0x10#8 = .ok .tick ∧ Instr.tick.context = .interrupt ∧
  ∀ s : State,
    (s.ten = true → exec .tick s = .next
      { s with
        ct := BitVec.ofNat 16 (if s.ct.toNat + 1 ≥ 43200 then 0 else s.ct.toNat + 1)
        disp := s.sr.extractLsb' 0 44
        rdy := false
        events := s.events ++ [.strobe] }) ∧
    (s.ten = false → ¬Enabled .tick s) ∧
    (TickGated s → (Enabled .tick s ↔ s.mode = .freeRunning))

/-- R111: BUTTON, whole: label, context, no guard, and the effect in each of the four modes. -/
def Obligations.ButtonStep : Prop :=
  decodeLabel 0x20#8 = .ok .button ∧ Instr.button.context = .interrupt ∧
  ∀ s : State, exec .button s = .next
    (match s.mode with
      | .freeRunning => { s with mode := .editHours, ten := false, events := s.events ++ [.tickDisable] }
      | .editHours => { s with mode := .editMins }
      | .editMins => { s with mode := .editSecs }
      | .editSecs => { s with mode := .freeRunning, ten := true, events := s.events ++ [.tickArm] })

/-- R113, with R112, R114 and R72 to R74: POLL, whole: labels, context; a poll that sees channel A at its
previous level changes nothing, whatever channel B is; one that sees it change adjusts the field under edit, by
mode and direction, and loads the adjusted time's frame; where a detent meets `CT` ≥ 43200 it is refused. -/
def Obligations.PollStep : Prop :=
  (∀ a b : Level, decodeLabel (0x30#8 + (if a then 2#8 else 0#8) + (if b then 1#8 else 0#8)) = .ok (.poll a b) ∧
    (Instr.poll a b).context = .main) ∧
  ∀ (s : State) (a b : Level),
    (s.mph = .idle → s.mode ≠ .freeRunning → a = s.eph → exec (.poll a b) s = .next s) ∧
    (∀ t', s.mph = .idle → a ≠ s.eph → s.ct.toNat ≤ 43199 →
      (s.mode = .editHours ∧
          t' = 3600 * ((s.ct.toNat / 3600 + (if a ≠ b then 1 else 11)) % 12) + s.ct.toNat % 3600 ∨
        s.mode = .editMins ∧
          t' = (s.ct.toNat - 60 * (s.ct.toNat / 60 % 60)) +
            60 * ((s.ct.toNat / 60 % 60 + (if a ≠ b then 1 else 59)) % 60) ∨
        s.mode = .editSecs ∧
          t' = (s.ct.toNat - s.ct.toNat % 60) + (s.ct.toNat % 60 + (if a ≠ b then 1 else 59)) % 60) →
      t' ≤ 43199 ∧ exec (.poll a b) s = .next
        { s with
          ct := BitVec.ofNat 16 t'
          fb := transmitWord (encodeFrame t')
          txi := 0
          org := .edit
          mph := .tx
          eph := a }) ∧
    ((s.mph = .tx ∨ s.mode = .freeRunning) → ¬Enabled (.poll a b) s) ∧
    (s.mph = .idle → s.mode ≠ .freeRunning → a ≠ s.eph → 43200 ≤ s.ct.toNat →
      ∃ r, exec (.poll a b) s = .refused r)

/-- R96 with R86: REFRESH, whole: label, context, guard, clamp, snapshot, effect. -/
def Obligations.RefreshStep : Prop :=
  decodeLabel 0x40#8 = .ok .refresh ∧ Instr.refresh.context = .main ∧
  ∀ s : State,
    (s.mph = .idle → s.mode = .freeRunning → s.rdy = false → exec .refresh s = .next
      { s with
        ct := if s.ct.toNat ≥ 43200 then 0 else s.ct
        fb := 0#4 ++ pack (digits (if s.ct.toNat ≥ 43200 then 0 else s.ct.toNat))
        txi := 0
        org := .free
        mph := .tx }) ∧
    (¬(s.mph = .idle ∧ s.mode = .freeRunning ∧ s.rdy = false) → ¬Enabled .refresh s)

/-- R97 with R33: TXB, whole: label, context, guard, the byte, the chain, the index. -/
def Obligations.TxbStep : Prop :=
  decodeLabel 0x50#8 = .ok .txb ∧ Instr.txb.context = .main ∧
  ∀ s : State,
    (s.mph = .tx → s.txi.toNat < 6 →
      exec .txb s = .next
        { s with
          sr := s.sr.extractLsb' 0 40 ++ (s.fb >>> (40 - 8 * s.txi.toNat)).setWidth 8
          txi := s.txi + 1
          events := s.events ++ [.txByte ((s.fb >>> (40 - 8 * s.txi.toNat)).setWidth 8)] } ∧
      (s.txi + 1).toNat = s.txi.toNat + 1) ∧
    (¬(s.mph = .tx ∧ s.txi.toNat < 6) → ¬Enabled .txb s)

/-- R98 with R35: DONE, whole: label, context, guard, and both origins. -/
def Obligations.DoneStep : Prop :=
  decodeLabel 0x60#8 = .ok .done ∧ Instr.done.context = .main ∧
  ∀ s : State,
    (s.mph = .tx → s.txi.toNat = 6 → s.org = .free →
      exec .done s = .next { s with rdy := true, mph := .idle }) ∧
    (s.mph = .tx → s.txi.toNat = 6 → s.org = .edit →
      exec .done s = .next
        { s with disp := s.sr.extractLsb' 0 44, events := s.events ++ [.strobe], mph := .idle }) ∧
    (¬(s.mph = .tx ∧ s.txi.toNat = 6) → ¬Enabled .done s)

/-- R62: with its guard false a step has no transition, and a schedule that holds it there is no execution; only
a poll without a detent is enabled yet changes neither the clock, the mode nor the sequencer. -/
def Obligations.FalseGuardHasNoTransition : Prop :=
  (∀ (i : Instr) (s : State), ¬guardHolds i s → ¬Enabled i s) ∧
  (∀ (i : Instr) (s : State), RangeInv s → (Enabled i s ↔ guardHolds i s)) ∧
  (∀ (before after : List Instr) (i : Instr) (s u t : State), execAll before s = .next u →
    ¬guardHolds i u → execAll (before ++ i :: after) s ≠ .next t) ∧
  (∀ (i : Instr) (s t : State), exec i s = .next t →
    t.ct = s.ct → t.mode = s.mode → t.mph = s.mph → t.txi = s.txi → ∃ b, i = .poll s.eph b)

/-- The model's choice of names (log entries 7 and 8): where the spec says "no transition" the model stops with the
fault named after the step, whether the step is run alone or taken off the schedule, and a detent at `CT` ≥ 43200
is refused as `adjustOutOfRange`. -/
def Obligations.StopsByName : Prop :=
  ∀ s : State,
    (¬guardHolds .tick s → exec .tick s = .fault .tickNotEnabled) ∧
    (∀ a b, ¬guardHolds (.poll a b) s → exec (.poll a b) s = .fault .pollNotEnabled) ∧
    (¬guardHolds .refresh s → exec .refresh s = .fault .refreshNotEnabled) ∧
    (¬guardHolds .txb s → exec .txb s = .fault .txbNotEnabled) ∧
    (¬guardHolds .done s → exec .done s = .fault .doneNotEnabled) ∧
    (∀ (i : Instr) (rest : List Byte), ¬guardHolds i s → s.sched = encode i ++ rest → ∃ f, step s = .fault f) ∧
    (∀ a b, guardHolds (.poll a b) s → a ≠ s.eph → 43200 ≤ s.ct.toNat →
      exec (.poll a b) s = .refused .adjustOutOfRange)

/-- R43: the main context's program order, as which of its steps are enabled in which states. -/
def Obligations.MainContextOrder : Prop :=
  ∀ (s : State), s.ct.toNat ≤ 43199 → ∀ i : Instr, i.context = .main →
    (s.mph = .idle → s.mode = .freeRunning → s.rdy = false → (Enabled i s ↔ i = .refresh)) ∧
    (s.mph = .idle → s.mode = .freeRunning → s.rdy = true → ¬Enabled i s) ∧
    (s.mph = .idle → s.mode ≠ .freeRunning → (Enabled i s ↔ ∃ a b, i = .poll a b)) ∧
    (s.mph = .tx → s.txi.toNat < 6 → (Enabled i s ↔ i = .txb)) ∧
    (s.mph = .tx → s.txi.toNat = 6 → (Enabled i s ↔ i = .done)) ∧
    (s.mph = .tx → s.txi.toNat = 7 → ¬Enabled i s)

/-! ### Frames -/

/-- What the interrupt-context steps leave unchanged (R26, R111, R125, R147). -/
def Obligations.InterruptStepsFrame : Prop :=
  (∀ s t : State, exec .tick s = .next t →
    t.mode = s.mode ∧ t.eph = s.eph ∧ t.ten = s.ten ∧ t.mph = s.mph ∧ t.txi = s.txi ∧ t.org = s.org ∧
    t.sr = s.sr ∧ t.sched = s.sched ∧ t.fb = s.fb ∧ ∀ k, frameByte t.fb k = frameByte s.fb k) ∧
  (∀ s t : State, exec .button s = .next t →
    t.ct = s.ct ∧ t.eph = s.eph ∧ t.rdy = s.rdy ∧ t.mph = s.mph ∧ t.txi = s.txi ∧ t.org = s.org ∧
    t.sr = s.sr ∧ t.disp = s.disp ∧ t.sched = s.sched ∧ t.fb = s.fb ∧
    ∀ k, frameByte t.fb k = frameByte s.fb k)

/-- What the serializer's steps leave unchanged (R26, R96 to R98). -/
def Obligations.SerializerStepsFrame : Prop :=
  (∀ s t : State, exec .refresh s = .next t →
    (s.ct.toNat ≤ 43199 → t.ct = s.ct) ∧ t.mode = s.mode ∧ t.eph = s.eph ∧ t.rdy = s.rdy ∧ t.ten = s.ten ∧
    t.sr = s.sr ∧ t.disp = s.disp ∧ t.sched = s.sched ∧ t.events = s.events) ∧
  (∀ s t : State, exec .txb s = .next t →
    t.ct = s.ct ∧ t.mode = s.mode ∧ t.eph = s.eph ∧ t.rdy = s.rdy ∧ t.ten = s.ten ∧ t.mph = s.mph ∧
    t.org = s.org ∧ t.disp = s.disp ∧ t.sched = s.sched ∧ t.fb = s.fb ∧
    ∀ k, frameByte t.fb k = frameByte s.fb k) ∧
  (∀ s t : State, exec .done s = .next t →
    t.ct = s.ct ∧ t.mode = s.mode ∧ t.eph = s.eph ∧ t.ten = s.ten ∧ t.txi = s.txi ∧ t.org = s.org ∧
    t.sr = s.sr ∧ t.sched = s.sched ∧ t.fb = s.fb ∧ (∀ k, frameByte t.fb k = frameByte s.fb k) ∧
    (s.org = .edit → t.rdy = s.rdy) ∧ (s.org = .free → t.disp = s.disp ∧ t.events = s.events))

/-- What POLL leaves unchanged (R26, R113). -/
def Obligations.PollFrame : Prop :=
  ∀ (s t : State) (a b : Level), exec (.poll a b) s = .next t →
    t.mode = s.mode ∧ t.rdy = s.rdy ∧ t.ten = s.ten ∧ t.sr = s.sr ∧ t.disp = s.disp ∧ t.sched = s.sched ∧
    t.events = s.events ∧
    (a = s.eph → t.ct = s.ct ∧ t.mph = s.mph ∧ t.fb = s.fb ∧ t.txi = s.txi ∧ t.org = s.org)

/-- The writers of every state element (R10 and R21's tables; R12 to R15). -/
def Obligations.WritersOfEachElement : Prop :=
  ∀ (i : Instr) (s t : State), exec i s = .next t →
    (t.ct ≠ s.ct → i = .tick ∨ (∃ a b, i = .poll a b ∧ a ≠ s.eph) ∨ (i = .refresh ∧ 43200 ≤ s.ct.toNat)) ∧
    (t.mode ≠ s.mode → i = .button) ∧
    (t.eph ≠ s.eph → ∃ a b, i = .poll a b ∧ t.eph = a) ∧
    (t.rdy ≠ s.rdy → i = .tick ∧ t.rdy = false ∨ i = .done ∧ s.org = .free ∧ t.rdy = true) ∧
    (t.ten ≠ s.ten → i = .button) ∧
    (t.mph ≠ s.mph → i = .refresh ∨ (∃ a b, i = .poll a b) ∨ i = .done) ∧
    (t.fb ≠ s.fb → i = .refresh ∨ ∃ a b, i = .poll a b) ∧
    (t.txi ≠ s.txi → i = .refresh ∨ (∃ a b, i = .poll a b) ∨ i = .txb) ∧
    (t.org ≠ s.org → i = .refresh ∨ ∃ a b, i = .poll a b) ∧
    (t.sr ≠ s.sr → i = .txb) ∧
    (t.disp ≠ s.disp → i = .tick ∨ i = .done ∧ s.org = .edit)

/-! ### Output events and the environment -/

/-- R33: a transmitted byte enters the chain at its low end and the oldest eight bits fall off. -/
def Obligations.TxByteShiftsChain : Prop :=
  ∀ (s : State) (b : Byte),
    (emit (.txByte b) s).sr.toNat = (s.sr.toNat * 256 + b.toNat) % 2 ^ 48 ∧
    (emit (.txByte b) s).sr = s.sr.extractLsb' 0 40 ++ b ∧
    (emit (.txByte b) s).disp = s.disp

/-- R35, R44: over any schedule the events are appended in order, and the chain and the display are what those
events make of them, and nothing else. -/
def Obligations.EnvironmentFollowsEvents : Prop :=
  ∀ (is : List Instr) (s t : State), execAll is s = .next t →
    ∃ es, t.events = s.events ++ es ∧ (t.sr, t.disp) = es.foldl replayEvent (s.sr, s.disp)

/-- R101: after six TXB steps from the start of a transmission, whatever else is interleaved, the chain holds the
whole frame, and a strobe there latches it. -/
def Obligations.WholeFrameReachesChain : Prop :=
  ∀ (is : List Instr) (s t : State) (c : Nat), s.mph = .tx → s.txi = 0 →
    s.fb = transmitWord (encodeFrame c) → is.count .txb = 6 → execAll is s = .next t →
    t.sr = s.fb ∧ t.sr.extractLsb' 0 44 = encodeFrame c ∧ (emit .strobe t).disp = encodeFrame c

/-- R41: after `k` bytes of a frame, whatever else is interleaved, the chain holds its old content moved up by
`8k` bits with the new bytes below, and a TICK there latches that mixture. -/
def Obligations.PartialFrameContents : Prop :=
  ∀ (is : List Instr) (s t : State) (k : Nat), s.mph = .tx → s.txi = 0 → is.count .txb = k → k ≤ 6 →
    execAll is s = .next t →
    t.sr.toNat = (s.sr.toNat * 2 ^ (8 * k) + s.fb.toNat / 2 ^ (48 - 8 * k)) % 2 ^ 48 ∧
    (t.ten = true → ∃ u, exec .tick t = .next u ∧ u.disp = t.sr.extractLsb' 0 44)

/-- R21: no guard and no result of the block depends on the chain or the display. -/
def Obligations.EnvironmentIsNotRead : Prop :=
  ∀ (i : Instr) (s : State) (x : TransmitWord) (y : Frame),
    (∀ t, exec i s = .next t →
      ∃ t', exec i { s with sr := x, disp := y } = .next t' ∧ { t' with sr := t.sr, disp := t.disp } = t) ∧
    (∀ f, exec i s = .fault f → exec i { s with sr := x, disp := y } = .fault f) ∧
    (∀ r, exec i s = .refused r → exec i { s with sr := x, disp := y } = .refused r)

/-- R16 to R19, R103: while `MPH` = IDLE the contents of `FB`, `TXI` and `ORG` are dead: a step from a state
with other contents ends in the same state, or in one that differs in them alone and is idle. -/
def Obligations.IdleFrameRegistersAreDead : Prop :=
  ∀ (i : Instr) (s : State) (w : TransmitWord) (x : BitVec 3) (o : Origin), s.mph = .idle →
    (∀ t, exec i s = .next t →
      ∃ t', exec i { s with fb := w, txi := x, org := o } = .next t' ∧
        (t' = t ∨ t.mph = .idle ∧ t' = { t with fb := w, txi := x, org := o })) ∧
    (∀ f, exec i s = .fault f → exec i { s with fb := w, txi := x, org := o } = .fault f) ∧
    (∀ r, exec i s = .refused r → exec i { s with fb := w, txi := x, org := o } = .refused r)

/-! ### TimeCounter -/

/-- R71: the value of `tick` on every 16-bit ClockTime. -/
def Obligations.TickFunctionValue : Prop :=
  ∀ t, t < 65536 →
    tick t = (if t + 1 ≥ 43200 then 0 else t + 1) ∧ tick t ≤ 43199 ∧
    (t ≤ 43199 → tick t = (t + 1) % 43200) ∧ (43200 ≤ t → tick t = 0)

/-- R75: no adjust function changes a field it is not for. -/
def Obligations.AdjustPreservesOtherFields : Prop :=
  ∀ t d, t ≤ 43199 →
    (∃ h, adjustHour t d = some h ∧ minsOf h = minsOf t ∧ secsOf h = secsOf t) ∧
    (∃ m, adjustMinute t d = some m ∧ hoursOf m = hoursOf t ∧ secsOf m = secsOf t) ∧
    (∃ x, adjustSecond t d = some x ∧ hoursOf x = hoursOf t ∧ minsOf x = minsOf t)

/-- R76: increment and decrement undo each other, and a full turn of a field is the identity. -/
def Obligations.AdjustInverse : Prop :=
  ∀ t, t ≤ 43199 →
    (∀ f ∈ [adjustHour, adjustMinute, adjustSecond],
      (f t .inc).bind (fun u => f u .dec) = some t ∧ (f t .dec).bind (fun u => f u .inc) = some t) ∧
    (∀ d, (fun o => o.bind (fun u => adjustHour u d))^[12] (some t) = some t) ∧
    (∀ d, (fun o => o.bind (fun u => adjustMinute u d))^[60] (some t) = some t) ∧
    (∀ d, (fun o => o.bind (fun u => adjustSecond u d))^[60] (some t) = some t)

/-- R77: the four functions stay in range, and 43200 ticks are the identity. -/
def Obligations.TimeCounterClosureAndCycle : Prop :=
  ∀ t, t ≤ 43199 →
    tick t ≤ 43199 ∧
    (∀ f ∈ [adjustHour, adjustMinute, adjustSecond], ∀ d, ∃ u, f t d = some u ∧ u ≤ 43199) ∧
    tick^[43200] t = t

/-- R133: `n` TICK steps from a state with the tick armed all run and advance `CT` by exactly `n`; after 43200 of
them it is where it was. -/
def Obligations.TicksAdvanceClock : Prop :=
  ∀ (s : State) (n : Nat), s.ten = true → s.ct.toNat ≤ 43199 →
    (∃ t, execAll (List.replicate n .tick) s = .next t ∧ t.ct.toNat = (s.ct.toNat + n) % 43200) ∧
    (∃ t, execAll (List.replicate 43200 .tick) s = .next t ∧ t.ct = s.ct)

/-! ### DigitEncoder -/

/-- R50, R80, R81: the digits of every ClockTime are legal and are the decimal digits of its hour, with 12 for
hour field 0, its minute and its second. -/
def Obligations.DigitsAreTheDisplayedTime : Prop :=
  ∀ t, t ≤ 43199 →
    (digits t).wf = true ∧
    10 * (digits t).h1.toNat + (digits t).h0.toNat = (if t / 3600 = 0 then 12 else t / 3600) ∧
    10 * (digits t).m1.toNat + (digits t).m0.toNat = t / 60 % 60 ∧
    10 * (digits t).s1.toNat + (digits t).s0.toNat = t % 60

/-- R55: the Frame of six legal digits is the sum of their one-hot codes at their fields' places. -/
def Obligations.PackIsTheFieldSum : Prop :=
  ∀ d : Digits, d.wf = true →
    (pack d).toNat = 2 ^ d.h1.toNat * 2 ^ 42 + 2 ^ d.h0.toNat * 2 ^ 32 + 2 ^ d.m1.toNat * 2 ^ 26 +
      2 ^ d.m0.toNat * 2 ^ 16 + 2 ^ d.s1.toNat * 2 ^ 10 + 2 ^ d.s0.toNat

/-- R88: exactly one bit in each of the six fields, six in the frame, none in the pad. -/
def Obligations.OneBitPerField : Prop :=
  ∀ t, t ≤ 43199 →
    popcount (fieldH1 (encodeFrame t)) = 1 ∧ popcount (fieldH0 (encodeFrame t)) = 1 ∧
    popcount (fieldM1 (encodeFrame t)) = 1 ∧ popcount (fieldM0 (encodeFrame t)) = 1 ∧
    popcount (fieldS1 (encodeFrame t)) = 1 ∧ popcount (fieldS0 (encodeFrame t)) = 1 ∧
    popcount (encodeFrame t) = 6 ∧ (encodeFrame t).toNat < 2 ^ 44 ∧
    (transmitWord (encodeFrame t)).extractLsb' 44 4 = 0

/-- R89: decoding an encoded ClockTime gives its digits, and different ClockTimes have different frames. -/
def Obligations.FrameRoundTrip : Prop :=
  (∀ t, t ≤ 43199 → decodeFrame (encodeFrame t) = some (digits t)) ∧
  (∀ t u, t ≤ 43199 → u ≤ 43199 → encodeFrame t = encodeFrame u → t = u)

/-- R84, R53, R56: the six bytes of a Frame are the bytes of its transmit word, most significant first, they
spell the Frame, and the first one's top four bits are 0. -/
def Obligations.SerializeIsBigEndian : Prop :=
  ∀ f : Frame,
    (serialize f).length = 6 ∧
    (serialize f).foldl (fun acc b => acc * 256 + b.toNat) 0 = f.toNat ∧
    (∀ k, k < 6 → (serialize f)[k]? = some (frameByte (transmitWord f) k) ∧
      (frameByte (transmitWord f) k).toNat = (transmitWord f).toNat / 2 ^ (40 - 8 * k) % 256) ∧
    (frameByte (transmitWord f) 0).toNat < 16

/-- R90: the byte pairs of an encoded ClockTime, each from one of hours, minutes and seconds alone. -/
def Obligations.BytePairs : Prop :=
  ∀ t, t ≤ 43199 → ∀ w, w = transmitWord (encodeFrame t) →
    (frameByte w 0 ++ frameByte w 1).toNat = 2 ^ (displayHour t / 10) * 1024 + 2 ^ (displayHour t % 10) ∧
    (frameByte w 2 ++ frameByte w 3).toNat = 2 ^ (minsOf t / 10) * 1024 + 2 ^ (minsOf t % 10) ∧
    (frameByte w 4 ++ frameByte w 5).toNat = 2 ^ (secsOf t / 10) * 1024 + 2 ^ (secsOf t % 10)

/-! ### Invariants and reset -/

/-- The values R27 gives for reset, `EPH` at the open parameter `ENC_PHASE_INIT`; that nothing is scheduled and
nothing emitted is the model's choice (log entries 5 and 6). -/
def Obligations.ResetValues : Prop :=
  State.reset.ct = 0 ∧ State.reset.mode = .freeRunning ∧ State.reset.eph = Config.encPhaseInit ∧
  State.reset.rdy = false ∧ State.reset.ten = true ∧ State.reset.mph = .idle ∧
  State.reset.sched = [] ∧ State.reset.events = [] ∧
  Enabled .tick State.reset ∧ Enabled .button State.reset

/-- The state after reset meets the invariants. -/
def Obligations.ResetMeetsInvariants : Prop := StateInv State.reset ∧ ChainInv State.reset

/-- R23, R24, R25: every step keeps the range, tick-gating and sequencer invariants. -/
def Obligations.StepKeepsInvariants : Prop :=
  ∀ s t : State, StateInv s → step s = .next t → StateInv t

/-- R23, R24: in every reachable state `CT` ≤ 43199, and `TEN` = 1 exactly in FreeRunning, so that TICK is never
enabled in an Edit mode. -/
def Obligations.ReachableStatesAreGated : Prop :=
  ∀ (is : List Instr) (t : State), execAll is State.reset = .next t →
    t.ct.toNat ≤ 43199 ∧ (t.ten = true ↔ t.mode = .freeRunning) ∧
    (t.mode ≠ .freeRunning → ¬Enabled .tick t)

/-- R25: in every reachable state with a transmission in progress `TXI` ≤ 6, the pad is 0, and `FB` is the frame
of the value that `CT` had right after the step that loaded it, the last such step. -/
def Obligations.FrameInFlightIsItsSnapshot : Prop :=
  ∀ (is : List Instr) (t : State), execAll is State.reset = .next t → t.mph = .tx →
    t.txi.toNat ≤ 6 ∧ t.fb.extractLsb' 44 4 = 0 ∧
    ∃ (before after : List Instr) (i : Instr) (u v : State),
      is = before ++ i :: after ∧ execAll before State.reset = .next u ∧ exec i u = .next v ∧
      execAll after v = .next t ∧ u.mph = .idle ∧ v.mph = .tx ∧
      (∀ j ∈ after, j = .txb ∨ j = .tick ∨ j = .button) ∧
      t.fb.extractLsb' 0 44 = encodeFrame v.ct.toNat

/-- R128: a step that meets `RefreshBeforeTick` keeps the chain invariant, and a TICK then shows the time that
has just ended. -/
def Obligations.StepKeepsChainInvariant : Prop :=
  ∀ s t : State, StateInv s → ChainInv s →
    (∀ rest, fetch s = .ok (some .tick, rest) → s.mph = .idle ∧ s.rdy = true) →
    step s = .next t →
    ChainInv t ∧
    (∀ rest, fetch s = .ok (some .tick, rest) →
      t.disp = encodeFrame s.ct.toNat ∧ t.ct.toNat = tick s.ct.toNat)

/-! ### Laws over schedules -/

/-- R129: in every execution at most one REFRESH occurs while no TICK does; between two consecutive TICKs that
meet `RefreshBeforeTick` exactly one does; and without that premise there may be none. -/
def Obligations.AtMostOneRefreshPerTick : Prop :=
  (∀ (is : List Instr) (s t : State), Instr.tick ∉ is → execAll is s = .next t → is.count .refresh ≤ 1) ∧
  (∀ (is : List Instr) (s t : State), Instr.tick ∉ is → RefreshBeforeTick (.tick :: is ++ [.tick]) s →
    execAll (.tick :: is ++ [.tick]) s = .next t → is.count .refresh = 1) ∧
  (∃ (is : List Instr) (s t : State), StateInv s ∧ Instr.tick ∉ is ∧ Instr.button ∉ is ∧
    execAll (.tick :: is ++ [.tick]) s = .next t ∧ is.count .refresh = 0)

/-- R131: from reset, with every refresh finished before its tick and no press, the display is one second behind
the counter. -/
def Obligations.DisplayIsOneTickStale : Prop :=
  ∀ (is : List Instr) (t : State) (n : Nat), Instr.button ∉ is →
    RefreshBeforeTick (is ++ [.tick]) State.reset → execAll (is ++ [.tick]) State.reset = .next t →
    n = (is ++ [Instr.tick]).count .tick →
    t.ct.toNat = n % 43200 ∧ t.disp = encodeFrame ((n - 1) % 43200)

/-- R115: four presses, with any other steps between them, restore the mode and, where the tick gating holds, the
tick enable; they emit one `TICK_DISABLE` and one `TICK_ARM`. -/
def Obligations.FourPressesRestoreMode : Prop :=
  ∀ (is : List Instr) (s t : State), is.count .button = 4 → execAll is s = .next t →
    t.mode = s.mode ∧ (TickGated s → t.ten = s.ten) ∧
    ∃ es, t.events = s.events ++ es ∧ es.count .tickDisable = 1 ∧ es.count .tickArm = 1

/-- R116: in an Edit mode no tick is enabled, and only a poll with a detent changes the time. -/
def Obligations.TimeIsFrozenWhileEditing : Prop :=
  ∀ (s : State), TickGated s → s.mode ≠ .freeRunning →
    ¬Enabled .tick s ∧
    ∀ (i : Instr) (t : State), exec i s = .next t → t.ct ≠ s.ct → ∃ a b, i = .poll a b ∧ a ≠ s.eph

/-- R117: after a poll with a detent, its six bytes and DONE, the display shows the adjusted time, whatever but a
tick is interleaved; and without interleaving that sequence runs. -/
def Obligations.EditIsShownAtOnce : Prop :=
  ∀ (s u : State) (a b : Level), s.ct.toNat ≤ 43199 → a ≠ s.eph → exec (.poll a b) s = .next u →
    (∃ w, execAll (List.replicate 6 .txb ++ [.done]) u = .next w) ∧
    (∀ (is : List Instr) (v w : State), Instr.tick ∉ is → is.count .txb = 6 → execAll is u = .next v →
      exec .done v = .next w → w.disp = encodeFrame u.ct.toNat ∧ w.ct = u.ct ∧ w.mph = .idle)

/-- R127 with R64's `SECOND`: one whole free-running second from a state whose chain holds the frame of `CT`. -/
def Obligations.FreeRunningSecond : Prop :=
  ∀ s : State, StateInv s → s.mode = .freeRunning → s.mph = .idle → s.rdy = true →
    s.sr.extractLsb' 0 44 = encodeFrame s.ct.toNat →
    ∃ t, execAll (expandPseudo s.eph .second) s = .next t ∧
      t.ct.toNat = (s.ct.toNat + 1) % 43200 ∧ t.disp = encodeFrame s.ct.toNat ∧
      t.sr = transmitWord (encodeFrame t.ct.toNat) ∧ t.rdy = true ∧ t.mph = .idle ∧ t.mode = .freeRunning ∧
      t.events = s.events ++ [.strobe] ++ (serialize (encodeFrame t.ct.toNat)).map .txByte

/-- R167: the first second from reset: one `CYCLE`, then the first tick shows 12:00:00 and `CT` is 1. -/
def Obligations.FirstSecondFromReset : Prop :=
  (∀ i : Instr, i.context = .main → (Enabled i State.reset ↔ i = .refresh)) ∧
  ∃ t u, execAll (expandPseudo State.reset.eph .cycle) State.reset = .next t ∧
    t.fb = 0x080404010401#48 ∧ t.sr = 0x080404010401#48 ∧ t.rdy = true ∧ t.mph = .idle ∧
    t.disp = State.reset.disp ∧
    exec .tick t = .next u ∧ u.disp = encodeFrame 0 ∧ u.ct = 1

/-- R171: a TICK between a REFRESH and its DONE leaves `RDY` = 1 over the frame of the second before it, the main
loop idles, and the next TICK shows a time two seconds behind. -/
def Obligations.TickDuringRefreshSkipsOne : Prop :=
  ∀ (s : State) (j : Nat), StateInv s → s.mode = .freeRunning → s.mph = .idle → s.rdy = false → j ≤ 6 →
    ∃ t u,
      execAll ([.refresh] ++ List.replicate j .txb ++ [.tick] ++ List.replicate (6 - j) .txb ++ [.done]) s =
        .next t ∧
      t.rdy = true ∧ t.mph = .idle ∧ t.ct.toNat = tick s.ct.toNat ∧
      t.sr.extractLsb' 0 44 = encodeFrame s.ct.toNat ∧ (∀ i : Instr, i.context = .main → ¬Enabled i t) ∧
      exec .tick t = .next u ∧ u.disp = encodeFrame s.ct.toNat ∧ u.ct.toNat = tick (tick s.ct.toNat)

/-- R146: a tick and a press at once, in either order: counted before the mode advances, or discarded. -/
def Obligations.TickAndButtonInEitherOrder : Prop :=
  ∀ s : State, TickGated s → s.mode = .freeRunning →
    (∃ t, execAll [.tick, .button] s = .next t ∧ t.ct.toNat = tick s.ct.toNat ∧ t.mode = .editHours ∧
      t.ten = false) ∧
    (∃ t, exec .button s = .next t ∧ t.ct = s.ct ∧ t.disp = s.disp ∧ t.mode = .editHours ∧ t.ten = false ∧
      ¬Enabled .tick t)

/-- R173: entering an edit session with `EPH` unlike channel A, the first poll adjusts the hours once. -/
def Obligations.StalePhaseAdjustsOnce : Prop :=
  ∀ (s : State) (a b : Level), s.ct.toNat ≤ 43199 → s.mode = .freeRunning → s.mph = .idle → a ≠ s.eph →
    ∃ t, execAll [.button, .poll a b] s = .next t ∧
      adjustHour s.ct.toNat (direction a b) = some t.ct.toNat ∧ t.eph = a ∧ t.mph = .tx ∧ t.org = .edit

/-- R169: a press that falls between the reads of a REFRESH gives the same state as one right after it. -/
def Obligations.ButtonCommutesWithRefresh : Prop :=
  ∀ s u v w : State, exec .refresh s = .next u → exec .button u = .next v → exec .button s = .next w →
    v = loadFrame .free w

/-- R64's `DETENT+` and `DETENT-` in an Edit mode: one increment or decrement of the field under edit, shown. -/
def Obligations.DetentsAdjustAndShow : Prop :=
  ∀ (s : State) (p : Pseudo) (d : Direction), s.ct.toNat ≤ 43199 → s.mode ≠ .freeRunning → s.mph = .idle →
    (p = .detentInc ∧ d = .inc ∨ p = .detentDec ∧ d = .dec) →
    ∃ t, execAll (expandPseudo s.eph p) s = .next t ∧
      adjustField s.mode s.ct.toNat d = some t.ct.toNat ∧ t.disp = encodeFrame t.ct.toNat ∧
      t.eph = !s.eph ∧ t.mph = .idle ∧ t.mode = s.mode ∧ t.rdy = s.rdy

/-- R95: from the start of a transmission, the first six main-context steps stay in it and the seventh ends it,
whatever interrupts are taken between them. -/
def Obligations.TransmissionTakesSevenSteps : Prop :=
  ∀ (is : List Instr) (s t : State) (n : Nat), s.mph = .tx → s.txi = 0 →
    n = is.countP (fun i => i.context = .main) → execAll is s = .next t →
    (n ≤ 6 → t.mph = .tx ∧ t.txi.toNat = n ∧ t.fb = s.fb ∧ t.org = s.org) ∧
    (n = 7 → t.mph = .idle)

/-- R95, R99, R179: in an infinite run in which the transmitter becomes ready and the main loop makes progress, a
started transmission finishes. -/
def Obligations.StartedTransmissionFinishes : Prop :=
  ∀ (states : Nat → State) (steps : Nat → Instr), IsRun states steps → TxEventuallyReady states steps →
    MainProgress states steps → ∀ n, (states n).mph = .tx → (states n).txi.toNat ≤ 6 →
    ∃ m, n < m ∧ (states m).mph = .idle
end

