-- ==== Sys2Proof/Laws/Decode.lean ====
section
/-! SUPPORT. Laws/Decode.lean: the label decoder against the legal labels and the encoder. -/

namespace Sys2Proof

@[simp] theorem context_tick : Instr.tick.context = .interrupt := rfl

@[simp] theorem context_button : Instr.button.context = .interrupt := rfl

@[simp] theorem context_poll (a b : Level) : (Instr.poll a b).context = .main := rfl

@[simp] theorem context_refresh : Instr.refresh.context = .main := rfl

@[simp] theorem context_txb : Instr.txb.context = .main := rfl

@[simp] theorem context_done : Instr.done.context = .main := rfl

/-- The decoder answers an instruction on exactly the labels that R59 and R61 call legal. -/
theorem decodeLabel_isOk_iff_legal : ∀ l : Byte, (decodeLabel l).isOk = labelLegal l := by decide

/-- Whatever a label decodes to, it is that step's label. -/
theorem encodeLabel_of_decodeLabel {l : Byte} {i : Instr} (h : decodeLabel l = .ok i) : encodeLabel i = l := by
  revert h
  suffices ∀ l : Byte, ((decodeLabel l).toOption.map encodeLabel).getD l = l by
    intro h
    simpa [h, Except.toOption] using this l
  decide

theorem decode_cons_of_ok {l : Byte} {rest : List Byte} {i : Instr} (h : decodeLabel l = .ok i) :
    decode (l :: rest) = .ok (i, rest) := by
  simp only [decode, h]

end Sys2Proof
end

