-- ==== Sys2Proof/Laws/DigitEncoder.lean ====
section
/-! SUPPORT. Laws/DigitEncoder.lean: the one-hot codes and the fields of a packed Frame. -/

namespace Sys2Proof.Machine

theorem append_toNat {m n : Nat} (x : BitVec m) (y : BitVec n) :
    (x ++ y).toNat = x.toNat * 2 ^ n + y.toNat := by
  rw [BitVec.toNat_append, ← Nat.shiftLeft_add_eq_or_of_lt y.isLt, Nat.shiftLeft_eq]

/-- The bound of each digit of a legal tuple (R50). -/
theorem digits_wf_bounds {d : Digits} (h : d.wf = true) :
    d.h1.toNat ≤ 1 ∧ d.h0.toNat ≤ 9 ∧ d.m1.toNat ≤ 5 ∧ d.m0.toNat ≤ 9 ∧ d.s1.toNat ≤ 5 ∧ d.s0.toNat ≤ 9 := by
  simp [Digits.wf] at h
  omega

/-! ### One-hot codes: cut to its field's width, the code of a legal digit keeps its one bit (R51, R83) -/

theorem onehot_toNat : ∀ d : BitVec 4, d.toNat ≤ 9 → (onehot d).toNat = 2 ^ d.toNat := by decide

theorem onehot_toNat_two : ∀ d : BitVec 4, d.toNat ≤ 1 → ((onehot d).setWidth 2).toNat = 2 ^ d.toNat := by
  decide

theorem onehot_toNat_six : ∀ d : BitVec 4, d.toNat ≤ 5 → ((onehot d).setWidth 6).toNat = 2 ^ d.toNat := by
  decide

theorem fieldPos_onehot : ∀ d : BitVec 4, d.toNat ≤ 9 → fieldPos (onehot d) = some d := by decide

theorem fieldPos_onehot_two : ∀ d : BitVec 4, d.toNat ≤ 1 → fieldPos ((onehot d).setWidth 2) = some d := by
  decide

theorem fieldPos_onehot_six : ∀ d : BitVec 4, d.toNat ≤ 5 → fieldPos ((onehot d).setWidth 6) = some d := by
  decide

theorem popcount_onehot : ∀ d : BitVec 4, d.toNat ≤ 9 → popcount (onehot d) = 1 := by decide

theorem popcount_onehot_two : ∀ d : BitVec 4, d.toNat ≤ 1 → popcount ((onehot d).setWidth 2) = 1 := by decide

theorem popcount_onehot_six : ∀ d : BitVec 4, d.toNat ≤ 5 → popcount ((onehot d).setWidth 6) = 1 := by decide

/-- The number of 1 bits of two fields side by side. -/
theorem popcount_append {m n : Nat} (x : BitVec m) (y : BitVec n) :
    popcount (x ++ y) = popcount x + popcount y := by
  have split_range : List.range (m + n) = List.range n ++ (List.range m).map (· + n) := by
    rw [Nat.add_comm, List.range_add]
    simp [Nat.add_comm]
  rw [popcount, oneBits, split_range, List.filter_append, List.length_append, List.filter_map,
    List.length_map, Nat.add_comm]
  congr 2 <;> apply List.filter_congr <;> intro i hi
  · simp [BitVec.getLsbD_append]
  · rw [BitVec.getLsbD_append]
    simp at hi
    simp [hi]

/-- Each field of a packed Frame is its digit's code (R52, R83). -/
theorem fields_of_pack (d : Digits) :
    fieldH1 (pack d) = (onehot d.h1).setWidth 2 ∧ fieldH0 (pack d) = onehot d.h0 ∧
    fieldM1 (pack d) = (onehot d.m1).setWidth 6 ∧ fieldM0 (pack d) = onehot d.m0 ∧
    fieldS1 (pack d) = (onehot d.s1).setWidth 6 ∧ fieldS0 (pack d) = onehot d.s0 := by
  have h1 := ((onehot d.h1).setWidth 2).isLt
  have h0 := (onehot d.h0).isLt
  have m1 := ((onehot d.m1).setWidth 6).isLt
  have m0 := (onehot d.m0).isLt
  have s1 := ((onehot d.s1).setWidth 6).isLt
  have s0 := (onehot d.s0).isLt
  refine ⟨?_, ?_, ?_, ?_, ?_, ?_⟩ <;>
  · apply BitVec.eq_of_toNat_eq
    simp only [fieldH1, fieldH0, fieldM1, fieldM0, fieldS1, fieldS0, BitVec.extractLsb'_toNat, pack,
      append_toNat, Nat.shiftRight_eq_div_pow] at *
    omega

end Sys2Proof.Machine
end

