-- ==== Sys2Proof/Laws/State.lean ====
section
/-! SUPPORT. Laws/State.lean: one lemma per field for every shared operation that writes the state. -/

namespace Sys2Proof.Machine

/-! ### The ready flag -/

@[simp] theorem clearReady_ct (s : State) : (clearReady s).ct = s.ct := rfl
@[simp] theorem clearReady_mode (s : State) : (clearReady s).mode = s.mode := rfl
@[simp] theorem clearReady_eph (s : State) : (clearReady s).eph = s.eph := rfl
@[simp] theorem clearReady_rdy (s : State) : (clearReady s).rdy = false := rfl
@[simp] theorem clearReady_ten (s : State) : (clearReady s).ten = s.ten := rfl
@[simp] theorem clearReady_mph (s : State) : (clearReady s).mph = s.mph := rfl
@[simp] theorem clearReady_fb (s : State) : (clearReady s).fb = s.fb := rfl
@[simp] theorem clearReady_txi (s : State) : (clearReady s).txi = s.txi := rfl
@[simp] theorem clearReady_org (s : State) : (clearReady s).org = s.org := rfl
@[simp] theorem clearReady_sr (s : State) : (clearReady s).sr = s.sr := rfl
@[simp] theorem clearReady_disp (s : State) : (clearReady s).disp = s.disp := rfl
@[simp] theorem clearReady_sched (s : State) : (clearReady s).sched = s.sched := rfl
@[simp] theorem clearReady_events (s : State) : (clearReady s).events = s.events := rfl

@[simp] theorem setReady_ct (s : State) : (setReady s).ct = s.ct := rfl
@[simp] theorem setReady_mode (s : State) : (setReady s).mode = s.mode := rfl
@[simp] theorem setReady_eph (s : State) : (setReady s).eph = s.eph := rfl
@[simp] theorem setReady_rdy (s : State) : (setReady s).rdy = true := rfl
@[simp] theorem setReady_ten (s : State) : (setReady s).ten = s.ten := rfl
@[simp] theorem setReady_mph (s : State) : (setReady s).mph = s.mph := rfl
@[simp] theorem setReady_fb (s : State) : (setReady s).fb = s.fb := rfl
@[simp] theorem setReady_txi (s : State) : (setReady s).txi = s.txi := rfl
@[simp] theorem setReady_org (s : State) : (setReady s).org = s.org := rfl
@[simp] theorem setReady_sr (s : State) : (setReady s).sr = s.sr := rfl
@[simp] theorem setReady_disp (s : State) : (setReady s).disp = s.disp := rfl
@[simp] theorem setReady_sched (s : State) : (setReady s).sched = s.sched := rfl
@[simp] theorem setReady_events (s : State) : (setReady s).events = s.events := rfl

/-! ### Output events -/

@[simp] theorem emit_strobe_ct (s : State) : (emit .strobe s).ct = s.ct := rfl
@[simp] theorem emit_strobe_mode (s : State) : (emit .strobe s).mode = s.mode := rfl
@[simp] theorem emit_strobe_eph (s : State) : (emit .strobe s).eph = s.eph := rfl
@[simp] theorem emit_strobe_rdy (s : State) : (emit .strobe s).rdy = s.rdy := rfl
@[simp] theorem emit_strobe_ten (s : State) : (emit .strobe s).ten = s.ten := rfl
@[simp] theorem emit_strobe_mph (s : State) : (emit .strobe s).mph = s.mph := rfl
@[simp] theorem emit_strobe_fb (s : State) : (emit .strobe s).fb = s.fb := rfl
@[simp] theorem emit_strobe_txi (s : State) : (emit .strobe s).txi = s.txi := rfl
@[simp] theorem emit_strobe_org (s : State) : (emit .strobe s).org = s.org := rfl
@[simp] theorem emit_strobe_sr (s : State) : (emit .strobe s).sr = s.sr := rfl
@[simp] theorem emit_strobe_disp (s : State) : (emit .strobe s).disp = s.sr.extractLsb' 0 44 := rfl
@[simp] theorem emit_strobe_sched (s : State) : (emit .strobe s).sched = s.sched := rfl
@[simp] theorem emit_strobe_events (s : State) : (emit .strobe s).events = s.events ++ [.strobe] := rfl

@[simp] theorem emit_txByte_ct (b : Byte) (s : State) : (emit (.txByte b) s).ct = s.ct := rfl
@[simp] theorem emit_txByte_mode (b : Byte) (s : State) : (emit (.txByte b) s).mode = s.mode := rfl
@[simp] theorem emit_txByte_eph (b : Byte) (s : State) : (emit (.txByte b) s).eph = s.eph := rfl
@[simp] theorem emit_txByte_rdy (b : Byte) (s : State) : (emit (.txByte b) s).rdy = s.rdy := rfl
@[simp] theorem emit_txByte_ten (b : Byte) (s : State) : (emit (.txByte b) s).ten = s.ten := rfl
@[simp] theorem emit_txByte_mph (b : Byte) (s : State) : (emit (.txByte b) s).mph = s.mph := rfl
@[simp] theorem emit_txByte_fb (b : Byte) (s : State) : (emit (.txByte b) s).fb = s.fb := rfl
@[simp] theorem emit_txByte_txi (b : Byte) (s : State) : (emit (.txByte b) s).txi = s.txi := rfl
@[simp] theorem emit_txByte_org (b : Byte) (s : State) : (emit (.txByte b) s).org = s.org := rfl
@[simp] theorem emit_txByte_sr (b : Byte) (s : State) : (emit (.txByte b) s).sr = shiftIn s.sr b := rfl
@[simp] theorem emit_txByte_disp (b : Byte) (s : State) : (emit (.txByte b) s).disp = s.disp := rfl
@[simp] theorem emit_txByte_sched (b : Byte) (s : State) : (emit (.txByte b) s).sched = s.sched := rfl
@[simp] theorem emit_txByte_events (b : Byte) (s : State) : (emit (.txByte b) s).events = s.events ++ [.txByte b] := rfl

@[simp] theorem emit_tickArm_ct (s : State) : (emit .tickArm s).ct = s.ct := rfl
@[simp] theorem emit_tickArm_mode (s : State) : (emit .tickArm s).mode = s.mode := rfl
@[simp] theorem emit_tickArm_eph (s : State) : (emit .tickArm s).eph = s.eph := rfl
@[simp] theorem emit_tickArm_rdy (s : State) : (emit .tickArm s).rdy = s.rdy := rfl
@[simp] theorem emit_tickArm_ten (s : State) : (emit .tickArm s).ten = s.ten := rfl
@[simp] theorem emit_tickArm_mph (s : State) : (emit .tickArm s).mph = s.mph := rfl
@[simp] theorem emit_tickArm_fb (s : State) : (emit .tickArm s).fb = s.fb := rfl
@[simp] theorem emit_tickArm_txi (s : State) : (emit .tickArm s).txi = s.txi := rfl
@[simp] theorem emit_tickArm_org (s : State) : (emit .tickArm s).org = s.org := rfl
@[simp] theorem emit_tickArm_sr (s : State) : (emit .tickArm s).sr = s.sr := rfl
@[simp] theorem emit_tickArm_disp (s : State) : (emit .tickArm s).disp = s.disp := rfl
@[simp] theorem emit_tickArm_sched (s : State) : (emit .tickArm s).sched = s.sched := rfl
@[simp] theorem emit_tickArm_events (s : State) : (emit .tickArm s).events = s.events ++ [.tickArm] := rfl

@[simp] theorem emit_tickDisable_ct (s : State) : (emit .tickDisable s).ct = s.ct := rfl
@[simp] theorem emit_tickDisable_mode (s : State) : (emit .tickDisable s).mode = s.mode := rfl
@[simp] theorem emit_tickDisable_eph (s : State) : (emit .tickDisable s).eph = s.eph := rfl
@[simp] theorem emit_tickDisable_rdy (s : State) : (emit .tickDisable s).rdy = s.rdy := rfl
@[simp] theorem emit_tickDisable_ten (s : State) : (emit .tickDisable s).ten = s.ten := rfl
@[simp] theorem emit_tickDisable_mph (s : State) : (emit .tickDisable s).mph = s.mph := rfl
@[simp] theorem emit_tickDisable_fb (s : State) : (emit .tickDisable s).fb = s.fb := rfl
@[simp] theorem emit_tickDisable_txi (s : State) : (emit .tickDisable s).txi = s.txi := rfl
@[simp] theorem emit_tickDisable_org (s : State) : (emit .tickDisable s).org = s.org := rfl
@[simp] theorem emit_tickDisable_sr (s : State) : (emit .tickDisable s).sr = s.sr := rfl
@[simp] theorem emit_tickDisable_disp (s : State) : (emit .tickDisable s).disp = s.disp := rfl
@[simp] theorem emit_tickDisable_sched (s : State) : (emit .tickDisable s).sched = s.sched := rfl
@[simp] theorem emit_tickDisable_events (s : State) : (emit .tickDisable s).events = s.events ++ [.tickDisable] := rfl

/-! ### The tick enable -/

@[simp] theorem armTick_ct (s : State) : (armTick s).ct = s.ct := rfl
@[simp] theorem armTick_mode (s : State) : (armTick s).mode = s.mode := rfl
@[simp] theorem armTick_eph (s : State) : (armTick s).eph = s.eph := rfl
@[simp] theorem armTick_rdy (s : State) : (armTick s).rdy = s.rdy := rfl
@[simp] theorem armTick_ten (s : State) : (armTick s).ten = true := rfl
@[simp] theorem armTick_mph (s : State) : (armTick s).mph = s.mph := rfl
@[simp] theorem armTick_fb (s : State) : (armTick s).fb = s.fb := rfl
@[simp] theorem armTick_txi (s : State) : (armTick s).txi = s.txi := rfl
@[simp] theorem armTick_org (s : State) : (armTick s).org = s.org := rfl
@[simp] theorem armTick_sr (s : State) : (armTick s).sr = s.sr := rfl
@[simp] theorem armTick_disp (s : State) : (armTick s).disp = s.disp := rfl
@[simp] theorem armTick_sched (s : State) : (armTick s).sched = s.sched := rfl
@[simp] theorem armTick_events (s : State) : (armTick s).events = s.events ++ [.tickArm] := rfl

@[simp] theorem disarmTick_ct (s : State) : (disarmTick s).ct = s.ct := rfl
@[simp] theorem disarmTick_mode (s : State) : (disarmTick s).mode = s.mode := rfl
@[simp] theorem disarmTick_eph (s : State) : (disarmTick s).eph = s.eph := rfl
@[simp] theorem disarmTick_rdy (s : State) : (disarmTick s).rdy = s.rdy := rfl
@[simp] theorem disarmTick_ten (s : State) : (disarmTick s).ten = false := rfl
@[simp] theorem disarmTick_mph (s : State) : (disarmTick s).mph = s.mph := rfl
@[simp] theorem disarmTick_fb (s : State) : (disarmTick s).fb = s.fb := rfl
@[simp] theorem disarmTick_txi (s : State) : (disarmTick s).txi = s.txi := rfl
@[simp] theorem disarmTick_org (s : State) : (disarmTick s).org = s.org := rfl
@[simp] theorem disarmTick_sr (s : State) : (disarmTick s).sr = s.sr := rfl
@[simp] theorem disarmTick_disp (s : State) : (disarmTick s).disp = s.disp := rfl
@[simp] theorem disarmTick_sched (s : State) : (disarmTick s).sched = s.sched := rfl
@[simp] theorem disarmTick_events (s : State) : (disarmTick s).events = s.events ++ [.tickDisable] := rfl

/-! ### The handlers -/

@[simp] theorem tickHandler_ct (s : State) : (tickHandler s).ct = BitVec.ofNat 16 (tick s.ct.toNat) := rfl
@[simp] theorem tickHandler_mode (s : State) : (tickHandler s).mode = s.mode := rfl
@[simp] theorem tickHandler_eph (s : State) : (tickHandler s).eph = s.eph := rfl
@[simp] theorem tickHandler_rdy (s : State) : (tickHandler s).rdy = false := rfl
@[simp] theorem tickHandler_ten (s : State) : (tickHandler s).ten = s.ten := rfl
@[simp] theorem tickHandler_mph (s : State) : (tickHandler s).mph = s.mph := rfl
@[simp] theorem tickHandler_fb (s : State) : (tickHandler s).fb = s.fb := rfl
@[simp] theorem tickHandler_txi (s : State) : (tickHandler s).txi = s.txi := rfl
@[simp] theorem tickHandler_org (s : State) : (tickHandler s).org = s.org := rfl
@[simp] theorem tickHandler_sr (s : State) : (tickHandler s).sr = s.sr := rfl
@[simp] theorem tickHandler_disp (s : State) : (tickHandler s).disp = s.sr.extractLsb' 0 44 := rfl
@[simp] theorem tickHandler_sched (s : State) : (tickHandler s).sched = s.sched := rfl
@[simp] theorem tickHandler_events (s : State) : (tickHandler s).events = s.events ++ [.strobe] := rfl

/-! ### Encoding and loading a frame -/

@[simp] theorem clampClock_mode (s : State) : (clampClock s).mode = s.mode := by
  unfold clampClock; split <;> rfl
@[simp] theorem clampClock_eph (s : State) : (clampClock s).eph = s.eph := by
  unfold clampClock; split <;> rfl
@[simp] theorem clampClock_rdy (s : State) : (clampClock s).rdy = s.rdy := by
  unfold clampClock; split <;> rfl
@[simp] theorem clampClock_ten (s : State) : (clampClock s).ten = s.ten := by
  unfold clampClock; split <;> rfl
@[simp] theorem clampClock_mph (s : State) : (clampClock s).mph = s.mph := by
  unfold clampClock; split <;> rfl
@[simp] theorem clampClock_fb (s : State) : (clampClock s).fb = s.fb := by
  unfold clampClock; split <;> rfl
@[simp] theorem clampClock_txi (s : State) : (clampClock s).txi = s.txi := by
  unfold clampClock; split <;> rfl
@[simp] theorem clampClock_org (s : State) : (clampClock s).org = s.org := by
  unfold clampClock; split <;> rfl
@[simp] theorem clampClock_sr (s : State) : (clampClock s).sr = s.sr := by
  unfold clampClock; split <;> rfl
@[simp] theorem clampClock_disp (s : State) : (clampClock s).disp = s.disp := by
  unfold clampClock; split <;> rfl
@[simp] theorem clampClock_sched (s : State) : (clampClock s).sched = s.sched := by
  unfold clampClock; split <;> rfl
@[simp] theorem clampClock_events (s : State) : (clampClock s).events = s.events := by
  unfold clampClock; split <;> rfl

@[simp] theorem encodeOp_ct (s : State) : (encodeOp s).ct = (clampClock s).ct := by
  simp [encodeOp]
@[simp] theorem encodeOp_mode (s : State) : (encodeOp s).mode = s.mode := by
  simp [encodeOp]
@[simp] theorem encodeOp_eph (s : State) : (encodeOp s).eph = s.eph := by
  simp [encodeOp]
@[simp] theorem encodeOp_rdy (s : State) : (encodeOp s).rdy = s.rdy := by
  simp [encodeOp]
@[simp] theorem encodeOp_ten (s : State) : (encodeOp s).ten = s.ten := by
  simp [encodeOp]
@[simp] theorem encodeOp_mph (s : State) : (encodeOp s).mph = s.mph := by
  simp [encodeOp]
@[simp] theorem encodeOp_fb (s : State) : (encodeOp s).fb = transmitWord (encodeFrame (snapshot s)) := by
  simp [encodeOp]
@[simp] theorem encodeOp_txi (s : State) : (encodeOp s).txi = s.txi := by
  simp [encodeOp]
@[simp] theorem encodeOp_org (s : State) : (encodeOp s).org = s.org := by
  simp [encodeOp]
@[simp] theorem encodeOp_sr (s : State) : (encodeOp s).sr = s.sr := by
  simp [encodeOp]
@[simp] theorem encodeOp_disp (s : State) : (encodeOp s).disp = s.disp := by
  simp [encodeOp]
@[simp] theorem encodeOp_sched (s : State) : (encodeOp s).sched = s.sched := by
  simp [encodeOp]
@[simp] theorem encodeOp_events (s : State) : (encodeOp s).events = s.events := by
  simp [encodeOp]

@[simp] theorem loadFrame_ct (o : Origin) (s : State) : (loadFrame o s).ct = (clampClock s).ct := by
  simp [loadFrame]
@[simp] theorem loadFrame_mode (o : Origin) (s : State) : (loadFrame o s).mode = s.mode := by
  simp [loadFrame]
@[simp] theorem loadFrame_eph (o : Origin) (s : State) : (loadFrame o s).eph = s.eph := by
  simp [loadFrame]
@[simp] theorem loadFrame_rdy (o : Origin) (s : State) : (loadFrame o s).rdy = s.rdy := by
  simp [loadFrame]
@[simp] theorem loadFrame_ten (o : Origin) (s : State) : (loadFrame o s).ten = s.ten := by
  simp [loadFrame]
@[simp] theorem loadFrame_mph (o : Origin) (s : State) : (loadFrame o s).mph = .tx := by
  simp [loadFrame]
@[simp] theorem loadFrame_fb (o : Origin) (s : State) : (loadFrame o s).fb = transmitWord (encodeFrame (snapshot s)) := by
  simp [loadFrame]
@[simp] theorem loadFrame_txi (o : Origin) (s : State) : (loadFrame o s).txi = 0 := by
  simp [loadFrame]
@[simp] theorem loadFrame_org (o : Origin) (s : State) : (loadFrame o s).org = o := by
  simp [loadFrame]
@[simp] theorem loadFrame_sr (o : Origin) (s : State) : (loadFrame o s).sr = s.sr := by
  simp [loadFrame]
@[simp] theorem loadFrame_disp (o : Origin) (s : State) : (loadFrame o s).disp = s.disp := by
  simp [loadFrame]
@[simp] theorem loadFrame_sched (o : Origin) (s : State) : (loadFrame o s).sched = s.sched := by
  simp [loadFrame]
@[simp] theorem loadFrame_events (o : Origin) (s : State) : (loadFrame o s).events = s.events := by
  simp [loadFrame]

/-! ### The end of a transmission -/

@[simp] theorem finishFrame_ct (s : State) : (finishFrame s).ct = s.ct := by
  unfold finishFrame; split <;> rfl
@[simp] theorem finishFrame_mode (s : State) : (finishFrame s).mode = s.mode := by
  unfold finishFrame; split <;> rfl
@[simp] theorem finishFrame_eph (s : State) : (finishFrame s).eph = s.eph := by
  unfold finishFrame; split <;> rfl
@[simp] theorem finishFrame_ten (s : State) : (finishFrame s).ten = s.ten := by
  unfold finishFrame; split <;> rfl
@[simp] theorem finishFrame_mph (s : State) : (finishFrame s).mph = s.mph := by
  unfold finishFrame; split <;> rfl
@[simp] theorem finishFrame_fb (s : State) : (finishFrame s).fb = s.fb := by
  unfold finishFrame; split <;> rfl
@[simp] theorem finishFrame_txi (s : State) : (finishFrame s).txi = s.txi := by
  unfold finishFrame; split <;> rfl
@[simp] theorem finishFrame_org (s : State) : (finishFrame s).org = s.org := by
  unfold finishFrame; split <;> rfl
@[simp] theorem finishFrame_sr (s : State) : (finishFrame s).sr = s.sr := by
  unfold finishFrame; split <;> rfl
@[simp] theorem finishFrame_sched (s : State) : (finishFrame s).sched = s.sched := by
  unfold finishFrame; split <;> rfl

/-! ### The schedule -/

@[simp] theorem placeLabels_ct (ls : List Byte) (s : State) : (placeLabels ls s).ct = s.ct := rfl
@[simp] theorem placeLabels_mode (ls : List Byte) (s : State) : (placeLabels ls s).mode = s.mode := rfl
@[simp] theorem placeLabels_eph (ls : List Byte) (s : State) : (placeLabels ls s).eph = s.eph := rfl
@[simp] theorem placeLabels_rdy (ls : List Byte) (s : State) : (placeLabels ls s).rdy = s.rdy := rfl
@[simp] theorem placeLabels_ten (ls : List Byte) (s : State) : (placeLabels ls s).ten = s.ten := rfl
@[simp] theorem placeLabels_mph (ls : List Byte) (s : State) : (placeLabels ls s).mph = s.mph := rfl
@[simp] theorem placeLabels_fb (ls : List Byte) (s : State) : (placeLabels ls s).fb = s.fb := rfl
@[simp] theorem placeLabels_txi (ls : List Byte) (s : State) : (placeLabels ls s).txi = s.txi := rfl
@[simp] theorem placeLabels_org (ls : List Byte) (s : State) : (placeLabels ls s).org = s.org := rfl
@[simp] theorem placeLabels_sr (ls : List Byte) (s : State) : (placeLabels ls s).sr = s.sr := rfl
@[simp] theorem placeLabels_disp (ls : List Byte) (s : State) : (placeLabels ls s).disp = s.disp := rfl
@[simp] theorem placeLabels_sched (ls : List Byte) (s : State) : (placeLabels ls s).sched = ls ++ s.sched := rfl
@[simp] theorem placeLabels_events (ls : List Byte) (s : State) : (placeLabels ls s).events = s.events := rfl

end Sys2Proof.Machine
end

