-- ==== Sys2Proof/Laws/Ops.lean ====
section
/-! SUPPORT. Laws/Ops.lean: what each shared operation can do, said once. -/

namespace Sys2Proof.Machine

/-! ### Guards -/

theorem guarded_of_holds {p : Prop} [Decidable p] (f : Fault) (r : Result) (h : p) : guarded p f r = r :=
  if_pos h

theorem guarded_of_not {p : Prop} [Decidable p] (f : Fault) (r : Result) (h : ¬p) :
    guarded p f r = .fault f :=
  if_neg h

/-- A guarded step answers a next state exactly where its guard holds and its effect does. -/
theorem guarded_eq_next {p : Prop} [Decidable p] {f : Fault} {r : Result} {t : State} :
    guarded p f r = .next t ↔ p ∧ r = .next t := by
  unfold guarded
  split <;> simp [*]

/-! ### Bytes, words and the chain -/

theorem shiftIn_toNat (sr : TransmitWord) (b : Byte) :
    (shiftIn sr b).toNat = (sr.toNat * 256 + b.toNat) % 2 ^ 48 := by
  have hb := b.isLt
  rw [shiftIn, BitVec.toNat_append, Nat.shiftLeft_eq,
    ← Nat.shiftLeft_eq, ← Nat.shiftLeft_add_eq_or_of_lt (by omega), Nat.shiftLeft_eq,
    BitVec.extractLsb'_toNat]
  simp only [Nat.shiftRight_zero]
  omega

theorem transmitWord_toNat (f : Frame) : (transmitWord f).toNat = f.toNat := by
  rw [transmitWord, BitVec.toNat_append]
  simp

theorem transmitWord_low (f : Frame) : (transmitWord f).extractLsb' 0 44 = f := by
  apply BitVec.eq_of_toNat_eq
  rw [BitVec.extractLsb'_toNat, transmitWord_toNat]
  have := f.isLt
  simp only [Nat.shiftRight_zero]
  omega

theorem transmitWord_pad (f : Frame) : (transmitWord f).extractLsb' 44 4 = 0 := by
  apply BitVec.eq_of_toNat_eq
  rw [BitVec.extractLsb'_toNat, transmitWord_toNat, Nat.shiftRight_eq_div_pow]
  have := f.isLt
  change f.toNat / 2 ^ 44 % 2 ^ 4 = 0
  omega

theorem frameByte_toNat (w : TransmitWord) (i : Nat) :
    (frameByte w i).toNat = w.toNat / 2 ^ (40 - 8 * i) % 256 := by
  rw [frameByte, BitVec.extractLsb'_toNat, Nat.shiftRight_eq_div_pow]

theorem frameByte_eq_shift (w : TransmitWord) (i : Nat) :
    frameByte w i = (w >>> (40 - 8 * i)).setWidth 8 := by
  apply BitVec.eq_of_toNat_eq
  rw [frameByte_toNat, BitVec.toNat_setWidth, BitVec.toNat_ushiftRight, Nat.shiftRight_eq_div_pow]

/-- The chain after one more byte, in the terms of R41: `k` bytes sent become `k + 1`. -/
theorem sent_succ {sr fb : Nat} {k : Nat} (hk : k < 6) :
    ((sr * 2 ^ (8 * k) + fb / 2 ^ (48 - 8 * k)) % 2 ^ 48 * 256 + fb / 2 ^ (40 - 8 * k) % 256) % 2 ^ 48 =
      (sr * 2 ^ (8 * (k + 1)) + fb / 2 ^ (48 - 8 * (k + 1))) % 2 ^ 48 := by
  interval_cases k <;> simp only [Nat.reduceMul, Nat.reduceSub, Nat.reduceAdd, Nat.reducePow] <;> omega

/-! ### The snapshot and the clamp -/

theorem snapshot_of_range {s : State} (h : RangeInv s) : snapshot s = s.ct.toNat := by
  have : s.ct.toNat ≤ 43199 := h
  simp only [snapshot, Config.period]
  rw [if_neg (by omega)]

theorem clampClock_of_range {s : State} (h : RangeInv s) : clampClock s = s := by
  have : s.ct.toNat ≤ 43199 := h
  simp only [clampClock, Config.period]
  rw [if_neg (by omega)]

/-- After the clamp `CT` is the snapshot that was encoded. -/
theorem clampClock_ct_toNat (s : State) : (clampClock s).ct.toNat = snapshot s := by
  unfold clampClock snapshot
  split <;> rfl

theorem snapshot_le (s : State) : snapshot s ≤ 43199 := by
  simp only [snapshot, Config.period]
  split <;> omega

/-- A loaded frame encodes the clock it leaves (R86), and that clock is in range. -/
theorem loadFrame_ct_toNat (o : Origin) (s : State) : (loadFrame o s).ct.toNat = snapshot s := by
  rw [loadFrame_ct, clampClock_ct_toNat]

end Sys2Proof.Machine
end

