-- ==== Sys2Proof/Laws/TimeCounter.lean ====
section
/-! SUPPORT. Laws/TimeCounter.lean: the component functions as arithmetic. -/

namespace Sys2Proof.Machine

theorem tick_eq (t : Nat) : tick t = if t + 1 ≥ 43200 then 0 else t + 1 := rfl

/-- The result of a tick is in range for every argument (R71). -/
theorem tick_le (t : Nat) : tick t ≤ 43199 := by
  rw [tick_eq]
  split <;> omega

theorem tick_eq_mod {t : Nat} (h : t ≤ 43199) : tick t = (t + 1) % 43200 := by
  rw [tick_eq]
  split <;> omega

theorem tick_lt_wide (t : Nat) : tick t < 2 ^ 16 := by
  have := tick_le t
  omega

theorem moveField_lt {n : Nat} (h : 0 < n) (d : Direction) (x : Nat) : moveField n d x < n := by
  cases d <;> exact Nat.mod_lt _ h

theorem onLegalTime_eq_some {t t' u : Nat} : onLegalTime t t' = some u ↔ t ≤ 43199 ∧ t' = u := by
  simp only [onLegalTime, Config.period]
  split
  · simp; omega
  · simp; omega

theorem onLegalTime_eq_none {t t' : Nat} : onLegalTime t t' = none ↔ 43200 ≤ t := by
  simp [onLegalTime]

/-- `adjustHour` on a legal time: the hour field moved, the rest kept (R72). -/
theorem adjustHour_eq {t : Nat} (h : t ≤ 43199) (d : Direction) :
    adjustHour t d = some (3600 * moveField 12 d (hoursOf t) + t % 3600) :=
  onLegalTime_eq_some.mpr ⟨h, rfl⟩

theorem adjustMinute_eq {t : Nat} (h : t ≤ 43199) (d : Direction) :
    adjustMinute t d = some ((t - 60 * minsOf t) + 60 * moveField 60 d (minsOf t)) :=
  onLegalTime_eq_some.mpr ⟨h, rfl⟩

theorem adjustSecond_eq {t : Nat} (h : t ≤ 43199) (d : Direction) :
    adjustSecond t d = some ((t - secsOf t) + moveField 60 d (secsOf t)) :=
  onLegalTime_eq_some.mpr ⟨h, rfl⟩

/-- Every value that an adjust function gives is in range. -/
theorem adjustField_le {m : Mode} {t u : Nat} {d : Direction} (h : adjustField m t d = some u) :
    u ≤ 43199 := by
  have h12 := moveField_lt (n := 12) (by omega) d (hoursOf t)
  have hm := moveField_lt (n := 60) (by omega) d (minsOf t)
  have hs := moveField_lt (n := 60) (by omega) d (secsOf t)
  cases m
  case freeRunning => cases h
  all_goals
    obtain ⟨ht, rfl⟩ := onLegalTime_eq_some.mp h
    simp only [minsOf, secsOf] at *
    omega

/-- In an Edit mode the adjust function has a value on every legal time. -/
theorem adjustField_isSome {m : Mode} {t : Nat} (hm : m ≠ .freeRunning) (ht : t ≤ 43199) (d : Direction) :
    ∃ u, adjustField m t d = some u := by
  cases m
  case freeRunning => exact absurd rfl hm
  all_goals exact ⟨_, onLegalTime_eq_some.mpr ⟨ht, rfl⟩⟩

/-- Beyond 43199 no adjust function has a value (R79). -/
theorem adjustField_of_out_of_range {m : Mode} {t : Nat} (ht : 43200 ≤ t) (d : Direction) :
    adjustField m t d = none := by
  cases m
  case freeRunning => rfl
  all_goals exact onLegalTime_eq_none.mpr ht

end Sys2Proof.Machine
end

