-- ==== Sys2Proof/Laws/Exec.lean ====
section
/-! SUPPORT. Laws/Exec.lean: the inversion of each step operation: if it answers a next state, then this is its
guard and this the state. -/

namespace Sys2Proof.Machine

theorem exec_tick_eq_next {s t : State} : exec .tick s = .next t ↔ s.ten = true ∧ tickHandler s = t := by
  simp only [exec, execTick, guarded_eq_next, inInterrupt, Host.Outcome.next.injEq]

theorem exec_button_eq_next {s t : State} : exec .button s = .next t ↔ buttonHandler s = t := by
  simp only [exec, execButton, inInterrupt, Host.Outcome.next.injEq]

theorem pollDetent_eq_next {a b : Level} {s t : State} :
    pollDetent a b s = .next t ↔ ∃ u, adjustField s.mode s.ct.toNat (direction a b) = some u ∧
      { loadFrame .edit { s with ct := BitVec.ofNat 16 u } with eph := a } = t := by
  unfold pollDetent
  cases adjustField s.mode s.ct.toNat (direction a b) <;> simp

/-- A poll either sees no detent and changes nothing, or adjusts, loads and begins a transmission. -/
theorem exec_poll_eq_next {a b : Level} {s t : State} :
    exec (.poll a b) s = .next t ↔ (s.mph = .idle ∧ s.mode ≠ .freeRunning) ∧
      ((a = s.eph ∧ s = t) ∨
        (a ≠ s.eph ∧ ∃ u, adjustField s.mode s.ct.toNat (direction a b) = some u ∧
          { loadFrame .edit { s with ct := BitVec.ofNat 16 u } with eph := a } = t)) := by
  simp only [exec, execPoll, guarded_eq_next]
  by_cases h : a = s.eph
  · subst h
    simp [detent]
  · simp [detent, h, pollDetent_eq_next]

theorem exec_refresh_eq_next {s t : State} :
    exec .refresh s = .next t ↔
      (s.mph = .idle ∧ s.mode = .freeRunning ∧ s.rdy = false) ∧ loadFrame .free s = t := by
  simp only [exec, execRefresh, guarded_eq_next, Host.Outcome.next.injEq]

theorem exec_txb_eq_next {s t : State} :
    exec .txb s = .next t ↔ (s.mph = .tx ∧ s.txi.toNat < 6) ∧
      { emit (.txByte (currentByte s)) s with txi := s.txi + 1 } = t := by
  simp only [exec, execTxb, guarded_eq_next, Host.Outcome.next.injEq, Config.frameBytes]

theorem exec_done_eq_next {s t : State} :
    exec .done s = .next t ↔ (s.mph = .tx ∧ s.txi.toNat = 6) ∧ { finishFrame s with mph := .idle } = t := by
  simp only [exec, execDone, guarded_eq_next, Host.Outcome.next.injEq, Config.frameBytes]

theorem finishFrame_of_free {s : State} (h : s.org = .free) : finishFrame s = setReady s := by
  simp only [finishFrame, h]

theorem finishFrame_of_edit {s : State} (h : s.org = .edit) : finishFrame s = emit .strobe s := by
  simp only [finishFrame, h]

theorem finishFrame_withSched (s : State) (r : List Byte) :
    finishFrame { s with sched := r } = { finishFrame s with sched := r } := by
  obtain ⟨_, _, _, _, _, _, _, _, o, _, _, _, _⟩ := s
  cases o <;> rfl

/-- A poll's loaded state in full, where the adjusted time is in range. -/
theorem loadFrame_adjusted (o : Origin) (s : State) {u : Nat} (h : u ≤ 43199) :
    loadFrame o { s with ct := BitVec.ofNat 16 u } =
      { s with ct := BitVec.ofNat 16 u, fb := transmitWord (encodeFrame u), txi := 0, org := o, mph := .tx } := by
  have hu : (BitVec.ofNat 16 u).toNat = u := by
    rw [BitVec.toNat_ofNat]
    omega
  have hr : RangeInv { s with ct := BitVec.ofNat 16 u } := by
    change (BitVec.ofNat 16 u).toNat ≤ 43199
    omega
  simp only [loadFrame, encodeOp, snapshot_of_range hr, clampClock_of_range hr, hu]

/-- REFRESH's loaded state in full, where `CT` is in range. -/
theorem loadFrame_of_range (o : Origin) {s : State} (h : RangeInv s) :
    loadFrame o s =
      { s with fb := transmitWord (encodeFrame s.ct.toNat), txi := 0, org := o, mph := .tx } := by
  simp only [loadFrame, encodeOp, snapshot_of_range h, clampClock_of_range h]

/-- The button handler by the mode it starts in (R111). -/
theorem buttonHandler_of_mode (s : State) :
    buttonHandler s =
      match s.mode with
      | .freeRunning => disarmTick { s with mode := .editHours }
      | .editHours => { s with mode := .editMins }
      | .editMins => { s with mode := .editSecs }
      | .editSecs => armTick { s with mode := .freeRunning } := by
  unfold buttonHandler nextMode
  cases s.mode <;> rfl

@[simp] theorem buttonHandler_ct (s : State) : (buttonHandler s).ct = s.ct := by
  rw [buttonHandler_of_mode]
  cases s.mode <;> rfl

@[simp] theorem buttonHandler_eph (s : State) : (buttonHandler s).eph = s.eph := by
  rw [buttonHandler_of_mode]
  cases s.mode <;> rfl

@[simp] theorem buttonHandler_rdy (s : State) : (buttonHandler s).rdy = s.rdy := by
  rw [buttonHandler_of_mode]
  cases s.mode <;> rfl

@[simp] theorem buttonHandler_mph (s : State) : (buttonHandler s).mph = s.mph := by
  rw [buttonHandler_of_mode]
  cases s.mode <;> rfl

@[simp] theorem buttonHandler_fb (s : State) : (buttonHandler s).fb = s.fb := by
  rw [buttonHandler_of_mode]
  cases s.mode <;> rfl

@[simp] theorem buttonHandler_txi (s : State) : (buttonHandler s).txi = s.txi := by
  rw [buttonHandler_of_mode]
  cases s.mode <;> rfl

@[simp] theorem buttonHandler_org (s : State) : (buttonHandler s).org = s.org := by
  rw [buttonHandler_of_mode]
  cases s.mode <;> rfl

@[simp] theorem buttonHandler_sr (s : State) : (buttonHandler s).sr = s.sr := by
  rw [buttonHandler_of_mode]
  cases s.mode <;> rfl

@[simp] theorem buttonHandler_disp (s : State) : (buttonHandler s).disp = s.disp := by
  rw [buttonHandler_of_mode]
  cases s.mode <;> rfl

@[simp] theorem buttonHandler_sched (s : State) : (buttonHandler s).sched = s.sched := by
  rw [buttonHandler_of_mode]
  cases s.mode <;> rfl

@[simp] theorem buttonHandler_mode (s : State) : (buttonHandler s).mode = nextMode s.mode := by
  rw [buttonHandler_of_mode]
  cases s.mode <;> rfl

/-- No step operation reads or writes the schedule. -/
theorem exec_next_sched {i : Instr} {s t : State} (h : exec i s = .next t) : t.sched = s.sched := by
  cases i with
  | tick => obtain ⟨-, rfl⟩ := exec_tick_eq_next.mp h; simp
  | button =>
    rw [exec_button_eq_next, buttonHandler_of_mode] at h
    subst h
    cases s.mode <;> simp
  | poll a b =>
    obtain ⟨-, ⟨-, rfl⟩ | ⟨-, u, -, rfl⟩⟩ := exec_poll_eq_next.mp h
    · rfl
    · simp
  | refresh => obtain ⟨-, rfl⟩ := exec_refresh_eq_next.mp h; simp
  | txb => obtain ⟨-, rfl⟩ := exec_txb_eq_next.mp h; simp
  | done =>
    obtain ⟨-, rfl⟩ := exec_done_eq_next.mp h
    unfold finishFrame
    cases s.org <;> simp

/-- An outcome with another schedule in its next state. -/
def outcomeWithSched (r : List Byte) : Result → Result
  | .next t => .next { t with sched := r }
  | .fault f => .fault f
  | .refused q => .refused q

/-- A step operation answers the same whatever is scheduled after it. -/
theorem exec_withSched (i : Instr) (s : State) (r : List Byte) :
    exec i { s with sched := r } = outcomeWithSched r (exec i s) := by
  cases i with
  | tick =>
    simp only [exec, execTick, guarded, inInterrupt]
    split <;> rfl
  | button =>
    simp only [exec, execButton, inInterrupt, buttonHandler_of_mode]
    cases s.mode <;> rfl
  | poll a b =>
    simp only [exec, execPoll, guarded, pollDetent, loadFrame, encodeOp, clampClock, snapshot]
    split
    · split
      · cases adjustField s.mode s.ct.toNat (direction a b) with
        | none => rfl
        | some u => dsimp only; split <;> rfl
      · rfl
    · rfl
  | refresh =>
    simp only [exec, execRefresh, guarded, loadFrame, encodeOp, clampClock, snapshot]
    split
    · split <;> rfl
    · rfl
  | txb =>
    simp only [exec, execTxb, guarded]
    split <;> rfl
  | done =>
    simp only [exec, execDone, guarded]
    split
    · rw [finishFrame_withSched]; rfl
    · rfl

end Sys2Proof.Machine
end

