-- ==== Sys2Proof/Laws/Execution.lean ====
section
/-! SUPPORT. Laws/Execution.lean: schedules run step by step. -/

namespace Sys2Proof.Machine

@[simp] theorem execAll_nil (s : State) : execAll [] s = .next s := rfl

theorem execAll_cons_of_next {i : Instr} {is : List Instr} {s t : State} (h : exec i s = .next t) :
    execAll (i :: is) s = execAll is t := by
  simp only [execAll, h]

theorem execAll_cons_eq_next {i : Instr} {is : List Instr} {s u : State} :
    execAll (i :: is) s = .next u ↔ ∃ t, exec i s = .next t ∧ execAll is t = .next u := by
  simp only [execAll]
  cases exec i s <;> simp

theorem execAll_append_eq_next {is js : List Instr} {s u : State} :
    execAll (is ++ js) s = .next u ↔ ∃ t, execAll is s = .next t ∧ execAll js t = .next u := by
  induction is generalizing s with
  | nil => simp
  | cons i is ih =>
    simp only [List.cons_append, execAll_cons_eq_next, ih]
    constructor
    · rintro ⟨t, h1, v, h2, h3⟩; exact ⟨v, ⟨t, h1, h2⟩, h3⟩
    · rintro ⟨v, ⟨t, h1, h2⟩, h3⟩; exact ⟨t, h1, v, h2, h3⟩

/-- What every step keeps, every execution keeps. -/
theorem execAll_keeps {P : State → Prop} (hstep : ∀ i s t, P s → exec i s = .next t → P t)
    {is : List Instr} {s t : State} (hs : P s) (h : execAll is s = .next t) : P t := by
  induction is generalizing s with
  | nil => cases h; exact hs
  | cons i is ih =>
    obtain ⟨u, h1, h2⟩ := execAll_cons_eq_next.mp h
    exact ih (hstep i s u hs h1) h2

theorem execAll_next_sched {is : List Instr} {s t : State} (h : execAll is s = .next t) :
    t.sched = s.sched :=
  execAll_keeps (P := fun u => u.sched = s.sched) (fun _ _ _ hs h => (exec_next_sched h).trans hs) rfl h

/-- `RefreshBeforeTick` one step on, where the step's next state is known. -/
theorem refreshBeforeTick_cons_of_next {i : Instr} {is : List Instr} {s u : State} (h : exec i s = .next u) :
    RefreshBeforeTick (i :: is) s ↔ RefreshedAt i s ∧ RefreshBeforeTick is u := by
  simp [RefreshBeforeTick, h]

end Sys2Proof.Machine
end

