-- ==== Sys2Proof/Laws/PerInstr.lean ====
section
/-! SUPPORT. Laws/PerInstr.lean: statements made once per instruction. -/

namespace Sys2Proof.Laws.LabelFields

/-- The label of a well-formed step has a legal form, its reserved bits are 0, and the decoder reads it back. -/
def Statement (i : Instr) : Prop :=
  i.wf = true →
    labelLegal (encodeLabel i) = true ∧ labelReserved (encodeLabel i) = 0 ∧ decodeLabel (encodeLabel i) = .ok i

theorem tick : Statement .tick := fun _ => ⟨rfl, rfl, rfl⟩

theorem button : Statement .button := fun _ => ⟨rfl, rfl, rfl⟩

theorem poll (a b : Level) : Statement (.poll a b) := by
  intro _
  cases a <;> cases b <;> exact ⟨rfl, rfl, rfl⟩

theorem refresh : Statement .refresh := fun _ => ⟨rfl, rfl, rfl⟩

theorem txb : Statement .txb := fun _ => ⟨rfl, rfl, rfl⟩

theorem done : Statement .done := fun _ => ⟨rfl, rfl, rfl⟩

end Sys2Proof.Laws.LabelFields
end

