-- ==== Sys2Proof/Laws/Step.lean ====
section
/-! SUPPORT. Laws/Step.lean: what a step runs, by what it fetches. -/

namespace Sys2Proof.Machine

theorem step_of_fetch_some {s : State} {i : Instr} {rest : List Byte} (h : fetch s = .ok (some i, rest)) :
    step s = exec i { s with sched := rest } := by
  simp only [step, h]

theorem step_of_fetch_none {s : State} {rest : List Byte} (h : fetch s = .ok (none, rest)) :
    step s = .next { s with sched := rest } := by
  simp only [step, h]

theorem step_of_fetch_error {s : State} {e : LabelError} (h : fetch s = .error e) :
    step s = .refused (.reservedLabel e) := by
  simp only [step, h]

/-- With nothing scheduled the main loop's own next step is fetched. -/
theorem fetch_of_quiet {s : State} (h : s.sched = []) : fetch s = .ok (mainNext s, []) := by
  simp only [fetch, h]

theorem withSched_self {s : State} {r : List Byte} (h : s.sched = r) : { s with sched := r } = s := by
  subst h
  rfl

/-- A step that answers a next state either ran the instruction it fetched, or was an idle iteration. -/
theorem step_eq_next {s t : State} (h : step s = .next t) :
    (∃ i rest, fetch s = .ok (some i, rest) ∧ exec i { s with sched := rest } = .next t) ∨
      (∃ rest, fetch s = .ok (none, rest) ∧ { s with sched := rest } = t) := by
  unfold step at h
  cases hf : fetch s with
  | error e => simp [hf] at h
  | ok p =>
    obtain ⟨i | i, rest⟩ := p
    · simp only [hf, Host.Outcome.next.injEq] at h
      exact .inr ⟨rest, rfl, h⟩
    · simp only [hf] at h
      exact .inl ⟨i, rest, rfl, h⟩

/-! ### Runs of the machine as the host reads it -/

theorem run_succ_of_next (M : Host.Core) {s t : M.State} (k : Nat) (h : M.step s = .next t) :
    M.run (k + 1) s = M.run k t := by
  simp only [Host.Core.run, h]

theorem run_succ_of_fault (M : Host.Core) {s : M.State} {f : M.Fault} (k : Nat) (h : M.step s = .fault f) :
    M.run (k + 1) s = .fault f := by
  simp only [Host.Core.run, h]

theorem run_succ_of_refused (M : Host.Core) {s : M.State} {r : M.Refusal} (k : Nat)
    (h : M.step s = .refused r) : M.run (k + 1) s = .refused r := by
  simp only [Host.Core.run, h]

end Sys2Proof.Machine
end

