-- ==== Sys2Proof/Tests/Slice0.lean ====
section
/-! SUPPORT. Tests/Slice0.lean: the model's own tests, with the expected values of spec/95_test_vectors.md or of
the rule named, and one witness theorem for each statement that has hypotheses. -/

namespace Sys2Proof.Tests

open Sys2Proof.Machine

/-! ### Small states -/

/-- A free-running state at 01:00:00, idle, not refreshed. -/
def base : State :=
  { ct := 3600, mode := .freeRunning, eph := false, rdy := false, ten := true, mph := .idle, fb := 0, txi := 0,
    org := .free, sr := 0, disp := 0, sched := [], events := [] }

/-- The same with the frame of 01:00:00 in the chain, and refreshed. -/
def refreshed : State := { base with rdy := true, sr := 0x040204010401#48 }

/-- The same with that frame in flight and `k` bytes of it sent. -/
def sending (k : BitVec 3) (o : Origin) : State :=
  { base with mph := .tx, txi := k, org := o, fb := 0x040204010401#48 }

/-- An edit state at time `t`. -/
def editing (m : Mode) (e : Level) (t : ClockTime) : State :=
  { base with mode := m, eph := e, ct := t, rdy := true, ten := false }

def nextOf : Result → Option State
  | .next s => some s
  | .fault _ => none
  | .refused _ => none

def faultOf : Result → Option Fault
  | .next _ => none
  | .fault f => some f
  | .refused _ => none

def refusalOf : Result → Option Refusal
  | .next _ => none
  | .fault _ => none
  | .refused r => some r

/-! ### Decoding: words written out from R60 -/

theorem test_decode_tick : decodeTableWord 8 0b00010000 = some .tick := by decide

theorem test_decode_button : decodeTableWord 8 0b00100000 = some .button := by decide

theorem test_decode_poll :
    decodeTableWord 8 0b00110000 = some (.poll false false) ∧
    decodeTableWord 8 0b00110001 = some (.poll false true) ∧
    decodeTableWord 8 0b00110010 = some (.poll true false) ∧
    decodeTableWord 8 0b00110011 = some (.poll true true) := by decide

theorem test_decode_refresh : decodeTableWord 8 0b01000000 = some .refresh := by decide

theorem test_decode_txb : decodeTableWord 8 0b01010000 = some .txb := by decide

theorem test_decode_done : decodeTableWord 8 0b01100000 = some .done := by decide

/-- The refused labels that 95 section 2.6 lists. -/
theorem test_decode_refuses_reserved :
    [0x00, 0x11, 0x14, 0x21, 0x34, 0x38, 0x41, 0x51, 0x61, 0x70, 0x80, 0xFF].all
      (fun w => decodeTableWord 8 w == none) = true := by decide

/-- Each reason for a refusal. -/
theorem test_decode_names_the_reason :
    decodeLabel 0x70#8 = .error .unknownOpc ∧ decodeLabel 0x34#8 = .error .reservedBits ∧
    decodeLabel 0x61#8 = .error .operandBits ∧ decode [] = .error .noLabel := ⟨rfl, rfl, rfl, rfl⟩

/-! ### WellFormed smoke: one ill-formed term for each check

`Instr.wf` has no ill-formed term: the levels of POLL are the only operands and every level is legal (R161). -/

theorem test_ill_formed_label_opc : labelLegal 0x00#8 = false ∧ labelLegal 0x70#8 = false := by decide

theorem test_ill_formed_label_reserved_bits : labelLegal 0x14#8 = false ∧ labelLegal 0x34#8 = false := by decide

theorem test_ill_formed_label_operand_bits : labelLegal 0x11#8 = false ∧ labelLegal 0x61#8 = false := by decide

theorem test_ill_formed_schedule : scheduleLegal [0x10#8, 0x34#8] = false := by decide

theorem test_ill_formed_hour_digits :
    (Digits.mk 2 1 0 0 0 0).wf = false ∧ (Digits.mk 0 10 0 0 0 0).wf = false ∧
    (Digits.mk 0 0 0 0 0 0).wf = false ∧ (Digits.mk 1 3 0 0 0 0).wf = false := by decide

theorem test_ill_formed_minute_and_second_digits :
    (Digits.mk 1 2 6 0 0 0).wf = false ∧ (Digits.mk 1 2 0 10 0 0).wf = false ∧
    (Digits.mk 1 2 0 0 6 0).wf = false ∧ (Digits.mk 1 2 0 0 0 10).wf = false := by decide

/-! ### One step of each step operation (95 sections 2.3 to 2.5) -/

/-- 12:59:59 to 01:00:00. -/
theorem test_tick_advances_and_strobes :
    (nextOf (exec .tick { refreshed with ct := 3599, sr := 0x080482008200#48 })).map
      (fun t => (t.ct, t.rdy, t.disp, t.events)) = some (3600#16, false, 0x80482008200#44, [.strobe]) := by decide

/-- 11:59:59 to 12:00:00. -/
theorem test_tick_wraps_at_twelve_hours :
    (nextOf (exec .tick { refreshed with ct := 43199, sr := 0x080282008200#48 })).map
      (fun t => (t.ct, t.rdy, t.disp)) = some (0#16, false, 0x80282008200#44) := by decide

theorem test_button_leaves_free_running :
    (nextOf (exec .button (sending 3 .free))).map (fun t => (t.mode, t.ten, t.events, t.mph, t.txi)) =
      some (.editHours, false, [.tickDisable], .tx, 3#3) := by decide

theorem test_button_enters_free_running :
    (nextOf (exec .button (editing .editSecs true 5))).map (fun t => (t.mode, t.ten, t.events, t.rdy)) =
      some (.freeRunning, true, [.tickArm], true) := by decide

/-- 02:59:30, one increment of the minutes: 02:00:30. -/
theorem test_poll_increments_minutes :
    (nextOf (exec (.poll true false) (editing .editMins false 10770))).map
      (fun t => (t.ct, t.eph, t.fb, t.txi, t.org, t.mph)) =
      some (7230#16, true, 0x040404012001#48, 0#3, .edit, .tx) := by decide

/-- 12:00:00, one decrement of the seconds on a falling edge: 12:00:59. -/
theorem test_poll_decrements_seconds :
    (nextOf (exec (.poll false false) (editing .editSecs true 0))).map
      (fun t => (t.ct, t.eph, t.fb, t.mph)) = some (59#16, false, 0x080404018200#48, .tx) := by decide

theorem test_refresh_encodes_the_clock :
    (nextOf (exec .refresh { base with txi := 5, org := .edit })).map (fun t => (t.fb, t.txi, t.org, t.mph)) =
      some (0x040204010401#48, 0#3, .free, .tx) := by decide

/-- R86 on the unreachable `CT` = 43200. -/
theorem test_refresh_clamps :
    (nextOf (exec .refresh { base with ct := 43200 })).map (fun t => (t.ct, t.fb)) =
      some (0#16, 0x080404010401#48) := by decide

theorem test_txb_sends_the_first_byte :
    (nextOf (exec .txb { sending 0 .free with sr := 0xAABBCCDDEEFF#48 })).map
      (fun t => (t.txi, t.sr, t.events)) = some (1#3, 0xBBCCDDEEFF04#48, [.txByte 0x04#8]) := by decide

theorem test_txb_sends_the_last_byte :
    (nextOf (exec .txb (sending 5 .free))).map (fun t => (t.txi, t.events)) =
      some (6#3, [.txByte 0x01#8]) := by decide

theorem test_done_of_a_refresh_marks_ready :
    (nextOf (exec .done (sending 6 .free))).map (fun t => (t.rdy, t.mph, t.events)) =
      some (true, .idle, []) := by decide

theorem test_done_of_an_edit_strobes :
    (nextOf (exec .done { sending 6 .edit with sr := 0x040404012001#48 })).map
      (fun t => (t.rdy, t.mph, t.disp, t.events)) =
      some (false, .idle, 0x40404012001#44, [.strobe]) := by decide

/-- The rows of 95 that are not enabled. -/
theorem test_false_guards_stop :
    faultOf (exec .tick (editing .editMins false 0)) = some .tickNotEnabled ∧
    faultOf (exec (.poll true false) base) = some .pollNotEnabled ∧
    faultOf (exec .refresh refreshed) = some .refreshNotEnabled ∧
    faultOf (exec .txb (sending 6 .free)) = some .txbNotEnabled ∧
    faultOf (exec .done (sending 5 .free)) = some .doneNotEnabled := by decide

/-- R79: an adjust out of range is refused. -/
theorem test_adjust_out_of_range_is_refused :
    refusalOf (exec (.poll true false) (editing .editHours false 43200)) = some .adjustOutOfRange := by decide

/-! ### From reset -/

/-- From reset a placed REFRESH runs next and encodes 12:00:00 (R96's example). -/
theorem test_reset_runs_a_placed_refresh :
    (nextOf (step (State.reset.withFetchWord 8 0x40))).map (fun t => (t.fb, t.mph)) =
      some (0x080404010401#48, .tx) := by decide

/-- From reset a placed TICK and a placed reserved label. -/
theorem test_reset_runs_a_placed_tick :
    (nextOf (step (State.reset.withFetchWord 8 0x10))).map (fun t => (t.ct, t.rdy, t.sched)) =
      some (1#16, false, []) ∧
    refusalOf (step (State.reset.withFetchWord 8 0x14)) = some (.reservedLabel .reservedBits) := by decide

/-! ### The component functions (95 sections 2.1 and 2.2) -/

theorem test_time_counter_vectors :
    tick 3599 = 3600 ∧ tick 65535 = 0 ∧ adjustHour 39605 .inc = some 5 ∧ adjustHour 27529 .dec = some 23929 ∧
    adjustMinute 43199 .inc = some 39659 ∧ adjustMinute 0 .dec = some 3540 ∧
    adjustSecond 3599 .inc = some 3540 ∧ adjustSecond 27529 .dec = some 27528 ∧
    adjustHour 43200 .inc = none := by decide

theorem test_frame_vectors :
    encodeFrame 0 = 0x80404010401#44 ∧ encodeFrame 59 = 0x80404018200#44 ∧
    encodeFrame 12345 = 0x40810204020#44 ∧ encodeFrame 27529 = 0x48021004200#44 ∧
    encodeFrame 30000 = 0x50010010401#44 ∧ encodeFrame 43199 = 0x80282008200#44 ∧
    serialize (encodeFrame 35999) = [0x06#8, 0x00#8, 0x82#8, 0x00#8, 0x82#8, 0x00#8] := by decide

/-- `decode` on a legal frame, on the torn frame of program P4, and on an hour code of 13. -/
theorem test_decode_frame :
    decodeFrame 0x40204010401#44 = some ⟨0, 1, 0, 0, 0, 0⟩ ∧ decodeFrame 0x20082000402#44 = none ∧
    decodeFrame 0x80804010401#44 = none := by decide

/-- 03:25:45 as BCD digits. -/
theorem test_bcd_digits : bcdDigits 12345 = 0x032545#24 := by decide

/-- R63's example `BUTTON; POLL 1,0; TXB x6; DONE`. -/
theorem test_assembler_example :
    assemble false
      ['B', 'U', 'T', 'T', 'O', 'N', ';', ' ', 'P', 'O', 'L', 'L', ' ', '1', ',', '0', ';', ' ', 'T', 'X', 'B',
        ' ', 'x', '6', ';', ' ', 'D', 'O', 'N', 'E', ' ', '#', ' ', 'c', ';', '\n'] =
      some [0x20#8, 0x32#8, 0x50#8, 0x50#8, 0x50#8, 0x50#8, 0x50#8, 0x50#8, 0x60#8] := by decide

/-- `DETENT+;DETENT-` with `EPH` = 0: the second detent starts from the first one's level (R64). -/
theorem test_assembler_detents :
    (assemble false
      ['D', 'E', 'T', 'E', 'N', 'T', '+', ';', 'D', 'E', 'T', 'E', 'N', 'T', '-']).map
        (fun ls => (ls[0]?, ls[8]?, ls.length)) = some (some 0x32#8, some 0x30#8, 16) := by decide

/-! ### Witnesses: states and operands that meet the hypotheses of each statement -/

theorem witness_ReservedLabelsAreRefused :
    (∀ l ∈ [0x00#8, 0x0F#8, 0x11#8, 0x2F#8, 0x34#8, 0x3F#8, 0x61#8, 0x70#8, 0xFF#8],
      l ∉ [0x10#8, 0x20#8, 0x30#8, 0x31#8, 0x32#8, 0x33#8, 0x40#8, 0x50#8, 0x60#8]) ∧
    { base with sched := [0x11#8] }.sched = 0x11#8 :: [] := by decide

theorem witness_LabelsRoundTrip :
    (Instr.poll true false).wf = true ∧ decode [0x33#8, 0x50#8] = .ok (.poll true true, [0x50#8]) := ⟨rfl, rfl⟩

theorem witness_StepRunsScheduledLabel :
    decode { base with sched := [0x40#8, 0x50#8] }.sched = .ok (.refresh, [0x50#8]) ∧
    { base with sched := [0x32#8] }.sched = encode (.poll true false) ++ [] ∧ Instr.tick.wf = true :=
  ⟨rfl, rfl, rfl⟩

theorem witness_QuietScheduleRunsMainLoop :
    (base.sched = [] ∧ base.mph = .idle ∧ base.mode = .freeRunning ∧ base.rdy = false) ∧
    (refreshed.sched = [] ∧ refreshed.mph = .idle ∧ refreshed.mode = .freeRunning ∧ refreshed.rdy = true) ∧
    (∀ m ∈ [Mode.editHours, .editMins, .editSecs],
      (editing m true 0).sched = [] ∧ (editing m true 0).mph = .idle ∧ (editing m true 0).mode ≠ .freeRunning) ∧
    (∀ k ∈ [0#3, 5#3],
      (sending k .free).sched = [] ∧ (sending k .free).mph = .tx ∧ (sending k .free).txi.toNat < 6) ∧
    ((sending 6 .edit).sched = [] ∧ (sending 6 .edit).mph = .tx ∧ (sending 6 .edit).txi.toNat = 6) := by decide

theorem witness_ScheduleBytesRunAsSteps :
    { base with sched := [0x40#8, 0x33#8, 0x99#8] }.sched =
      encodeSchedule [.refresh, .poll true true] ++ [0x99#8] := by decide

theorem witness_TickStep :
    { base with ct := 0 }.ten = true ∧ { base with ct := 43199 }.ten = true ∧
    { base with ct := 65535 }.ten = true ∧ (editing .editSecs true 0).ten = false ∧ TickGated base ∧
    TickGated (editing .editHours true 0) := by decide

theorem witness_PollStep :
    (∀ m ∈ [Mode.editHours, .editMins, .editSecs], (editing m true 0).mph = .idle ∧
      (editing m true 0).mode ≠ .freeRunning ∧ true = (editing m true 0).eph) ∧
    (∃ s : State, s = editing .editHours false 43199 ∧ s.mph = .idle ∧ true ≠ s.eph ∧ s.ct.toNat ≤ 43199 ∧
      s.mode = .editHours ∧
      3599 = 3600 * ((s.ct.toNat / 3600 + (if true ≠ false then 1 else 11)) % 12) + s.ct.toNat % 3600) ∧
    (∃ s : State, s = editing .editMins true 0 ∧ s.mph = .idle ∧ false ≠ s.eph ∧ s.ct.toNat ≤ 43199 ∧
      s.mode = .editMins ∧
      3540 = (s.ct.toNat - 60 * (s.ct.toNat / 60 % 60)) +
        60 * ((s.ct.toNat / 60 % 60 + (if false ≠ false then 1 else 59)) % 60)) ∧
    (∃ s : State, s = editing .editSecs false 3599 ∧ s.mph = .idle ∧ true ≠ s.eph ∧ s.ct.toNat ≤ 43199 ∧
      s.mode = .editSecs ∧
      3540 = (s.ct.toNat - s.ct.toNat % 60) + (s.ct.toNat % 60 + (if true ≠ false then 1 else 59)) % 60) ∧
    ((sending 0 .edit).mph = .tx ∧ base.mode = .freeRunning) ∧
    (∀ s ∈ [editing .editHours false 43200, editing .editSecs false 65535],
      s.mph = .idle ∧ s.mode ≠ .freeRunning ∧ true ≠ s.eph ∧ 43200 ≤ s.ct.toNat) :=
  ⟨by decide, ⟨_, rfl, by decide⟩, ⟨_, rfl, by decide⟩, ⟨_, rfl, by decide⟩, by decide, by decide⟩

theorem witness_RefreshStep :
    (∀ s ∈ [base, { base with ct := 43199 }, { base with ct := 43200 }, { base with ct := 65535 }],
      s.mph = .idle ∧ s.mode = .freeRunning ∧ s.rdy = false) ∧
    (∀ s ∈ [sending 0 .free, editing .editMins false 0, refreshed],
      ¬(s.mph = .idle ∧ s.mode = .freeRunning ∧ s.rdy = false)) := by decide

theorem witness_TxbStep :
    (∀ k ∈ [0#3, 5#3], (sending k .free).mph = .tx ∧ (sending k .free).txi.toNat < 6) ∧
    (∀ s ∈ [sending 6 .free, sending 7 .edit, base], ¬(s.mph = .tx ∧ s.txi.toNat < 6)) := by decide

theorem witness_DoneStep :
    (∀ o ∈ [Origin.free, .edit],
      (sending 6 o).mph = .tx ∧ (sending 6 o).txi.toNat = 6 ∧ (sending 6 o).org = o) ∧
    (∀ s ∈ [sending 5 .free, sending 7 .edit, base], ¬(s.mph = .tx ∧ s.txi.toNat = 6)) := by decide

theorem witness_FalseGuardHasNoTransition :
    ¬guardHolds .tick (editing .editHours true 0) ∧ RangeInv { base with ct := 43199 } ∧
    (execAll [] (editing .editHours true 0) = .next (editing .editHours true 0)) ∧
    exec (.poll true false) (editing .editHours true 0) = .next (editing .editHours true 0) :=
  ⟨nofun, by decide, rfl, rfl⟩

/-- For each step with a guard a state where it is false. -/
theorem witness_StopsByName :
    (¬guardHolds .tick (editing .editHours true 0) ∧ ¬guardHolds (.poll true true) base ∧
      ¬guardHolds .refresh refreshed ∧ ¬guardHolds .txb (sending 6 .free) ∧ ¬guardHolds .done (sending 7 .edit)) ∧
    { refreshed with sched := [0x40#8] }.sched = encode .refresh ++ [] ∧
    (guardHolds (.poll true false) (editing .editHours false 43200) ∧
      true ≠ (editing .editHours false 43200).eph ∧ 43200 ≤ (editing .editHours false 43200).ct.toNat) :=
  ⟨⟨nofun, by simp [guardHolds, base], by simp [guardHolds, refreshed], by simp [guardHolds, sending],
    by simp [guardHolds, sending]⟩, rfl, ⟨rfl, nofun⟩, by decide, by decide⟩

theorem witness_MainContextOrder :
    (∀ s ∈ [base, refreshed, editing .editHours true 43199, sending 0 .free, sending 5 .edit, sending 6 .edit,
      sending 7 .free], s.ct.toNat ≤ 43199) ∧ Instr.txb.context = .main ∧
    (base.mph = .idle ∧ base.mode = .freeRunning ∧ base.rdy = false) ∧ refreshed.rdy = true ∧
    ((editing .editHours true 43199).mph = .idle ∧ (editing .editHours true 43199).mode ≠ .freeRunning) ∧
    ((sending 0 .free).mph = .tx ∧ (sending 5 .edit).txi.toNat < 6 ∧ (sending 6 .edit).txi.toNat = 6 ∧
      (sending 7 .free).txi.toNat = 7) := by decide

theorem witness_InterruptStepsFrame :
    (∃ t, exec .tick base = .next t) ∧ ∃ t, exec .button (sending 3 .edit) = .next t := ⟨⟨_, rfl⟩, ⟨_, rfl⟩⟩

theorem witness_SerializerStepsFrame :
    (base.ct.toNat ≤ 43199 ∧ ∃ t, exec .refresh base = .next t) ∧ (∃ t, exec .txb (sending 0 .free) = .next t) ∧
    ((sending 6 .edit).org = .edit ∧ ∃ t, exec .done (sending 6 .edit) = .next t) ∧
    ((sending 6 .free).org = .free ∧ ∃ t, exec .done (sending 6 .free) = .next t) :=
  ⟨⟨by decide, _, rfl⟩, ⟨_, rfl⟩, ⟨rfl, _, rfl⟩, ⟨rfl, _, rfl⟩⟩

theorem witness_PollFrame :
    (true = (editing .editSecs true 0).eph ∧ ∃ t, exec (.poll true false) (editing .editSecs true 0) = .next t) ∧
    ∃ t, exec (.poll false false) (editing .editSecs true 0) = .next t := ⟨⟨rfl, _, rfl⟩, ⟨_, rfl⟩⟩

/-- For each element a step that changes it. -/
theorem witness_WritersOfEachElement :
    (∃ t, exec .tick refreshed = .next t ∧ t.ct ≠ refreshed.ct ∧ t.rdy ≠ refreshed.rdy ∧
      t.disp ≠ refreshed.disp) ∧
    (∃ t, exec .refresh { base with ct := 43200 } = .next t ∧ t.ct ≠ 43200#16) ∧
    (∃ t, exec .button base = .next t ∧ t.mode ≠ base.mode ∧ t.ten ≠ base.ten) ∧
    (∃ t, exec (.poll true false) { editing .editHours false 0 with txi := 5 } = .next t ∧ t.ct ≠ 0#16 ∧
      t.eph ≠ false ∧ t.mph ≠ .idle ∧ t.fb ≠ 0#48 ∧ t.txi ≠ 5#3 ∧ t.org ≠ .free) ∧
    (∃ t, exec .refresh { base with txi := 6, org := .edit } = .next t ∧ t.mph ≠ .idle ∧ t.fb ≠ 0#48 ∧
      t.txi ≠ 6#3 ∧ t.org ≠ .edit) ∧
    (∃ t, exec .txb (sending 0 .free) = .next t ∧ t.txi ≠ 0#3 ∧ t.sr ≠ 0#48) ∧
    (∃ t, exec .done (sending 6 .free) = .next t ∧ t.rdy ≠ false ∧ t.mph ≠ .tx) ∧
    (∃ t, exec .done { sending 6 .edit with sr := 1 } = .next t ∧ t.disp ≠ 0#44) :=
  ⟨⟨_, rfl, by decide⟩, ⟨_, rfl, by decide⟩, ⟨_, rfl, by decide⟩, ⟨_, rfl, by decide⟩, ⟨_, rfl, by decide⟩,
    ⟨_, rfl, by decide⟩, ⟨_, rfl, by decide⟩, ⟨_, rfl, by decide⟩⟩

theorem witness_EnvironmentFollowsEvents : ∃ t, execAll [.tick, .refresh, .txb, .button] base = .next t :=
  ⟨_, rfl⟩

theorem witness_WholeFrameReachesChain :
    (sending 0 .free).mph = .tx ∧ (sending 0 .free).txi = 0 ∧
    (sending 0 .free).fb = transmitWord (encodeFrame 3600) ∧
    [Instr.txb, .txb, .tick, .txb, .txb, .button, .txb, .txb].count .txb = 6 ∧
    ∃ t, execAll [.txb, .txb, .tick, .txb, .txb, .button, .txb, .txb] (sending 0 .free) = .next t :=
  ⟨rfl, rfl, by decide, by decide, _, rfl⟩

theorem witness_PartialFrameContents :
    (sending 0 .free).mph = .tx ∧ (sending 0 .free).txi = 0 ∧
    ∀ k ∈ [0, 1, 5, 6], (List.replicate k Instr.txb).count .txb = k ∧
      (nextOf (execAll (List.replicate k .txb) (sending 0 .free))).map (·.ten) = some true := by decide

theorem witness_EnvironmentIsNotRead :
    (∃ t, exec .tick refreshed = .next t) ∧ (∃ f, exec .txb base = .fault f) ∧
    ∃ r, exec (.poll true true) (editing .editSecs false 65535) = .refused r :=
  ⟨⟨_, rfl⟩, ⟨_, rfl⟩, ⟨_, rfl⟩⟩

theorem witness_IdleFrameRegistersAreDead :
    (base.mph = .idle ∧ ∃ t, exec .refresh base = .next t) ∧ (base.mph = .idle ∧ ∃ t, exec .tick base = .next t) ∧
    (base.mph = .idle ∧ ∃ f, exec .done base = .fault f) ∧
    ((editing .editMins false 43200).mph = .idle ∧
      ∃ r, exec (.poll true false) (editing .editMins false 43200) = .refused r) :=
  ⟨⟨rfl, _, rfl⟩, ⟨rfl, _, rfl⟩, ⟨rfl, _, rfl⟩, ⟨rfl, _, rfl⟩⟩

theorem witness_TickFunctionValue : ∀ t ∈ [0, 43198, 43199, 43200, 65535], t < 65536 := by decide

theorem witness_AdjustPreservesOtherFields : ∀ t ∈ [0, 43199], t ≤ 43199 := by decide

theorem witness_AdjustInverse :
    (∀ t ∈ [0, 43199], t ≤ 43199) ∧ adjustSecond ∈ [adjustHour, adjustMinute, adjustSecond] := by simp

theorem witness_TimeCounterClosureAndCycle :
    (∀ t ∈ [0, 43199], t ≤ 43199) ∧ adjustHour ∈ [adjustHour, adjustMinute, adjustSecond] := by simp

theorem witness_TicksAdvanceClock :
    ∀ s ∈ [{ base with ct := 0 }, { base with ct := 43199 }], s.ten = true ∧ s.ct.toNat ≤ 43199 := by decide

theorem witness_DigitsAreTheDisplayedTime : ∀ t ∈ [0, 3599, 3600, 43199], t ≤ 43199 := by decide

theorem witness_PackIsTheFieldSum :
    (Digits.mk 1 2 5 9 5 9).wf = true ∧ (Digits.mk 0 1 0 0 0 0).wf = true ∧
    (Digits.mk 0 9 5 9 5 9).wf = true := by decide

theorem witness_OneBitPerField : ∀ t ∈ [0, 3600, 43199], t ≤ 43199 := by decide

theorem witness_FrameRoundTrip : ∀ t ∈ [0, 43199], ∀ u ∈ [0, 43199], t ≤ 43199 ∧ u ≤ 43199 := by decide

theorem witness_SerializeIsBigEndian : ∀ k ∈ [0, 5], k < 6 := by decide

theorem witness_BytePairs : ∀ t ∈ [0, 43199], t ≤ 43199 := by decide

theorem base_stateInv : StateInv base := ⟨by decide, by decide, nofun⟩

theorem refreshed_stateInv : StateInv refreshed := ⟨by decide, by decide, nofun⟩

theorem witness_StepKeepsInvariants :
    (StateInv base ∧ ∃ t, step base = .next t) ∧ (StateInv (sending 5 .free) ∧ ∃ t, step (sending 5 .free) = .next t) :=
  ⟨⟨base_stateInv, _, rfl⟩, ⟨⟨by decide, by decide, fun _ => ⟨by decide, 3600, by decide, by decide⟩⟩, _, rfl⟩⟩

theorem witness_ReachableStatesAreGated :
    ∃ t, execAll [.button] State.reset = .next t ∧ t.mode ≠ .freeRunning := ⟨_, rfl, by decide⟩

theorem witness_FrameInFlightIsItsSnapshot :
    ∃ t, execAll [.tick, .refresh, .txb, .tick] State.reset = .next t ∧ t.mph = .tx := ⟨_, rfl, rfl⟩

theorem witness_StepKeepsChainInvariant :
    StateInv { refreshed with sched := [0x10#8] } ∧ ChainInv { refreshed with sched := [0x10#8] } ∧
    fetch { refreshed with sched := [0x10#8] } = .ok (some .tick, []) ∧ refreshed.mph = .idle ∧
    refreshed.rdy = true ∧ ∃ t, step { refreshed with sched := [0x10#8] } = .next t :=
  ⟨⟨by decide, by decide, nofun⟩, ⟨fun _ _ => by decide, nofun⟩, rfl, rfl, rfl, _, rfl⟩

/-- One second of the free-running cycle meets `RefreshBeforeTick`. -/
theorem refreshBeforeTick_second :
    RefreshBeforeTick ([Instr.tick] ++ expandPseudo false .cycle ++ [.tick]) refreshed :=
  (refreshBeforeTick_cons_of_next rfl).mpr ⟨fun _ => ⟨rfl, rfl⟩,
    (refreshBeforeTick_cons_of_next rfl).mpr ⟨nofun, (refreshBeforeTick_cons_of_next rfl).mpr ⟨nofun,
    (refreshBeforeTick_cons_of_next rfl).mpr ⟨nofun, (refreshBeforeTick_cons_of_next rfl).mpr ⟨nofun,
    (refreshBeforeTick_cons_of_next rfl).mpr ⟨nofun, (refreshBeforeTick_cons_of_next rfl).mpr ⟨nofun,
    (refreshBeforeTick_cons_of_next rfl).mpr ⟨nofun, (refreshBeforeTick_cons_of_next rfl).mpr ⟨nofun,
    (refreshBeforeTick_cons_of_next rfl).mpr ⟨fun _ => ⟨rfl, rfl⟩, trivial⟩⟩⟩⟩⟩⟩⟩⟩⟩⟩

theorem witness_AtMostOneRefreshPerTick :
    (Instr.tick ∉ [Instr.refresh, .txb] ∧ ∃ t, execAll [.refresh, .txb] base = .next t) ∧
    (Instr.tick ∉ expandPseudo false .cycle ∧
      RefreshBeforeTick (.tick :: expandPseudo false .cycle ++ [.tick]) refreshed ∧
      ∃ t, execAll (.tick :: expandPseudo false .cycle ++ [.tick]) refreshed = .next t) :=
  ⟨⟨by decide, _, rfl⟩, ⟨by decide, refreshBeforeTick_second, _, rfl⟩⟩

theorem witness_DisplayIsOneTickStale :
    Instr.button ∉ expandPseudo false .cycle ∧
    RefreshBeforeTick (expandPseudo false .cycle ++ [.tick]) State.reset ∧
    (∃ t, execAll (expandPseudo false .cycle ++ [.tick]) State.reset = .next t) ∧
    1 = (expandPseudo false .cycle ++ [Instr.tick]).count .tick :=
  ⟨by decide, (refreshBeforeTick_cons_of_next rfl).mpr ⟨nofun, (refreshBeforeTick_cons_of_next rfl).mpr ⟨nofun,
    (refreshBeforeTick_cons_of_next rfl).mpr ⟨nofun, (refreshBeforeTick_cons_of_next rfl).mpr ⟨nofun,
    (refreshBeforeTick_cons_of_next rfl).mpr ⟨nofun, (refreshBeforeTick_cons_of_next rfl).mpr ⟨nofun,
    (refreshBeforeTick_cons_of_next rfl).mpr ⟨nofun, (refreshBeforeTick_cons_of_next rfl).mpr ⟨nofun,
    (refreshBeforeTick_cons_of_next rfl).mpr ⟨fun _ => ⟨rfl, rfl⟩, trivial⟩⟩⟩⟩⟩⟩⟩⟩⟩, ⟨_, rfl⟩, by decide⟩

theorem witness_FourPressesRestoreMode :
    [Instr.button, .button, .tick, .button, .button].count .button = 4 ∧ TickGated (editing .editMins true 0) ∧
    ∃ t, execAll [.button, .button, .tick, .button, .button] (editing .editMins true 0) = .next t :=
  ⟨by decide, by decide, _, rfl⟩

theorem witness_TimeIsFrozenWhileEditing :
    TickGated (editing .editHours false 0) ∧ (editing .editHours false 0).mode ≠ .freeRunning ∧
    ∃ t, exec (.poll true true) (editing .editHours false 0) = .next t ∧ t.ct ≠ (editing .editHours false 0).ct :=
  ⟨by decide, by decide, _, rfl, by decide⟩

theorem witness_EditIsShownAtOnce :
    (editing .editSecs false 43199).ct.toNat ≤ 43199 ∧ true ≠ (editing .editSecs false 43199).eph ∧
    ∃ u v w, exec (.poll true false) (editing .editSecs false 43199) = .next u ∧
      Instr.tick ∉ [Instr.txb, .button, .txb, .txb, .txb, .txb, .txb] ∧
      [Instr.txb, .button, .txb, .txb, .txb, .txb, .txb].count .txb = 6 ∧
      execAll [.txb, .button, .txb, .txb, .txb, .txb, .txb] u = .next v ∧ exec .done v = .next w :=
  ⟨by decide, by decide, _, _, _, rfl, by decide, by decide, rfl, rfl⟩

theorem witness_FreeRunningSecond :
    StateInv refreshed ∧ refreshed.mode = .freeRunning ∧ refreshed.mph = .idle ∧ refreshed.rdy = true ∧
    refreshed.sr.extractLsb' 0 44 = encodeFrame refreshed.ct.toNat := ⟨refreshed_stateInv, by decide⟩

theorem witness_FirstSecondFromReset : Instr.refresh.context = .main := rfl

theorem witness_TickDuringRefreshSkipsOne :
    StateInv base ∧ base.mode = .freeRunning ∧ base.mph = .idle ∧ base.rdy = false ∧ ∀ j ∈ [0, 6], j ≤ 6 :=
  ⟨base_stateInv, by decide⟩

theorem witness_TickAndButtonInEitherOrder : TickGated base ∧ base.mode = .freeRunning := by decide

theorem witness_StalePhaseAdjustsOnce :
    ∀ s ∈ [{ base with ct := 0 }, { base with ct := 43199 }],
      s.ct.toNat ≤ 43199 ∧ s.mode = .freeRunning ∧ s.mph = .idle ∧ true ≠ s.eph := by decide

theorem witness_ButtonCommutesWithRefresh :
    ∃ u v w, exec .refresh base = .next u ∧ exec .button u = .next v ∧ exec .button base = .next w :=
  ⟨_, _, _, rfl, rfl, rfl⟩

theorem witness_DetentsAdjustAndShow :
    ∀ m ∈ [Mode.editHours, .editMins, .editSecs], (editing m true 43199).ct.toNat ≤ 43199 ∧
      (editing m true 43199).mode ≠ .freeRunning ∧ (editing m true 43199).mph = .idle ∧
      (Pseudo.detentInc = .detentInc ∧ Direction.inc = .inc) ∧
      (Pseudo.detentDec = .detentDec ∧ Direction.dec = .dec) := by decide

theorem witness_TransmissionTakesSevenSteps :
    (sending 0 .edit).mph = .tx ∧ (sending 0 .edit).txi = 0 ∧
    (6 = [Instr.txb, .txb, .tick, .txb, .txb, .txb, .txb].countP (fun i => i.context = .main) ∧
      ∃ t, execAll [.txb, .txb, .tick, .txb, .txb, .txb, .txb] (sending 0 .edit) = .next t) ∧
    (7 = [Instr.txb, .txb, .tick, .txb, .txb, .txb, .txb, .done].countP (fun i => i.context = .main) ∧
      ∃ t, execAll [.txb, .txb, .tick, .txb, .txb, .txb, .txb, .done] (sending 0 .edit) = .next t) :=
  ⟨rfl, rfl, ⟨by decide, _, rfl⟩, ⟨by decide, _, rfl⟩⟩

/-- A run that sends the last byte of an edit's frame, ends the transmission and then polls without end. -/
def runSteps : Nat → Instr
  | 0 => .txb
  | 1 => .done
  | _ + 2 => .poll false false

def runStates : Nat → State
  | 0 => { sending 5 .edit with mode := .editMins, ten := false }
  | n + 1 => (nextOf (exec (runSteps n) (runStates n))).getD base

theorem runStates_idle (n : Nat) : runStates (n + 2) = runStates 2 := by
  induction n with
  | zero => rfl
  | succ n ih =>
    rw [runStates, ih]
    rfl

theorem witness_StartedTransmissionFinishes :
    IsRun runStates runSteps ∧ TxEventuallyReady runStates runSteps ∧ MainProgress runStates runSteps ∧
    (runStates 0).mph = .tx ∧ (runStates 0).txi.toNat ≤ 6 := by
  refine ⟨fun n => ?_, fun n hm ht => ?_, fun n _ => ⟨n, le_refl n, ?_⟩, rfl, by decide⟩
  · match n with
    | 0 => rfl
    | 1 => rfl
    | n + 2 =>
      rw [show n + 2 + 1 = (n + 1) + 2 from rfl, runStates_idle n, runStates_idle (n + 1)]
      rfl
  · match n with
    | 0 => exact ⟨0, le_refl 0, rfl⟩
    | 1 => exact absurd ht (by decide)
    | n + 2 =>
      rw [runStates_idle] at hm
      exact absurd hm (by decide)
  · match n with
    | 0 => rfl
    | 1 => rfl
    | _ + 2 => rfl

end Sys2Proof.Tests
end

section
/-! PROOFS. The invariants of every reachable state (10_state.md R23 to R25): what each step keeps of the clock
and of the tick gating, and where the frame in flight was loaded. -/

namespace Sys2Proof.Machine

/-! ### Range and tick gating, step by step (R23, R24) -/

/-- The clock that any encode leaves is in range, whatever it was before (R86). -/
theorem loadFrame_rangeInv (o : Origin) (s : State) : RangeInv (loadFrame o s) := by
  change (loadFrame o s).ct.toNat ≤ 43199
  rw [loadFrame_ct_toNat]
  exact snapshot_le s

theorem tickHandler_ct_toNat (s : State) : (tickHandler s).ct.toNat = tick s.ct.toNat := by
  rw [tickHandler_ct, BitVec.toNat_ofNat, Nat.mod_eq_of_lt (tick_lt_wide _)]

theorem exec_keeps_rangeInv {i : Instr} {s t : State} (hs : RangeInv s) (h : exec i s = .next t) :
    RangeInv t := by
  cases i with
  | tick =>
    obtain ⟨-, rfl⟩ := exec_tick_eq_next.mp h
    simpa only [RangeInv, tickHandler_ct_toNat] using tick_le s.ct.toNat
  | button =>
    obtain rfl := exec_button_eq_next.mp h
    simpa only [RangeInv, buttonHandler_ct] using hs
  | poll a b =>
    obtain ⟨-, ⟨-, rfl⟩ | ⟨-, u, -, rfl⟩⟩ := exec_poll_eq_next.mp h
    · exact hs
    · exact loadFrame_rangeInv .edit _
  | refresh =>
    obtain ⟨-, rfl⟩ := exec_refresh_eq_next.mp h
    exact loadFrame_rangeInv .free s
  | txb =>
    obtain ⟨-, rfl⟩ := exec_txb_eq_next.mp h
    exact hs
  | done =>
    obtain ⟨-, rfl⟩ := exec_done_eq_next.mp h
    simpa only [RangeInv, finishFrame_ct] using hs

/-- BUTTON alone writes `TEN` and `MODE` (R12, R15). -/
theorem exec_keeps_ten_mode_of_ne_button {i : Instr} {s t : State} (hi : i ≠ .button)
    (h : exec i s = .next t) : t.ten = s.ten ∧ t.mode = s.mode := by
  cases i with
  | tick => obtain ⟨-, rfl⟩ := exec_tick_eq_next.mp h; simp
  | button => exact absurd rfl hi
  | poll a b =>
    obtain ⟨-, ⟨-, rfl⟩ | ⟨-, u, -, rfl⟩⟩ := exec_poll_eq_next.mp h
    · simp
    · simp
  | refresh => obtain ⟨-, rfl⟩ := exec_refresh_eq_next.mp h; simp
  | txb => obtain ⟨-, rfl⟩ := exec_txb_eq_next.mp h; simp
  | done => obtain ⟨-, rfl⟩ := exec_done_eq_next.mp h; simp

/-- BUTTON writes `TEN` exactly where it leaves or enters FreeRunning, so the two stay equivalent (R111). -/
theorem buttonHandler_tickGated {s : State} (hs : TickGated s) : TickGated (buttonHandler s) := by
  rw [buttonHandler_of_mode]
  cases hm : s.mode with
  | freeRunning => simp [TickGated]
  | editHours => simpa [TickGated, hm] using hs
  | editMins => simpa [TickGated, hm] using hs
  | editSecs => simp [TickGated]

theorem exec_keeps_tickGated {i : Instr} {s t : State} (hs : TickGated s) (h : exec i s = .next t) :
    TickGated t := by
  by_cases hi : i = .button
  · subst hi
    obtain rfl := exec_button_eq_next.mp h
    exact buttonHandler_tickGated hs
  · obtain ⟨hten, hmode⟩ := exec_keeps_ten_mode_of_ne_button hi h
    simpa only [TickGated, hten, hmode] using hs

theorem enabled_tick_iff {s : State} : Enabled .tick s ↔ s.ten = true := by
  simp [Enabled, exec_tick_eq_next]

theorem reset_rangeInv : RangeInv State.reset := by decide

theorem reset_tickGated : TickGated State.reset := by decide

/-- Settles O40: the range and the tick gating hold at reset and every step keeps them, so every execution does;
TICK's guard is `TEN`, which the gating makes false in an edit mode. -/
theorem reachableStatesAreGated : Obligations.ReachableStatesAreGated := by
  intro is t h
  have hrange : RangeInv t := execAll_keeps (fun _ _ _ => exec_keeps_rangeInv) reset_rangeInv h
  have hgated : TickGated t := execAll_keeps (fun _ _ _ => exec_keeps_tickGated) reset_tickGated h
  exact ⟨hrange, hgated, fun hm he => hm (hgated.mp (enabled_tick_iff.mp he))⟩

/-! ### The frame in flight (R25) -/

/-- A loaded frame is that of the clock that the loading step leaves (R86). -/
theorem loadFrame_fb_eq_encodeFrame (o : Origin) (s : State) :
    (loadFrame o s).fb = transmitWord (encodeFrame (loadFrame o s).ct.toNat) := by
  rw [loadFrame_fb, loadFrame_ct_toNat]

/-- A step that begins a transmission has loaded the frame of the clock it leaves, with no byte sent. -/
theorem exec_begins_transmission {i : Instr} {s t : State} (hs : s.mph = .idle) (ht : t.mph = .tx)
    (h : exec i s = .next t) : t.txi = 0 ∧ t.fb = transmitWord (encodeFrame t.ct.toNat) := by
  cases i with
  | tick => obtain ⟨-, rfl⟩ := exec_tick_eq_next.mp h; simp [hs] at ht
  | button => obtain rfl := exec_button_eq_next.mp h; simp [hs] at ht
  | poll a b =>
    obtain ⟨-, ⟨-, rfl⟩ | ⟨-, u, -, rfl⟩⟩ := exec_poll_eq_next.mp h
    · simp [hs] at ht
    · exact ⟨loadFrame_txi .edit { s with ct := BitVec.ofNat 16 u }, loadFrame_fb_eq_encodeFrame .edit _⟩
  | refresh =>
    obtain ⟨-, rfl⟩ := exec_refresh_eq_next.mp h
    exact ⟨loadFrame_txi .free s, loadFrame_fb_eq_encodeFrame .free s⟩
  | txb =>
    obtain ⟨⟨hmph, -⟩, -⟩ := exec_txb_eq_next.mp h
    simp [hs] at hmph
  | done => obtain ⟨-, rfl⟩ := exec_done_eq_next.mp h; simp at ht

/-- A step within a transmission is TXB, TICK or BUTTON; it leaves `FB` alone and sends no seventh byte. -/
theorem exec_within_transmission {i : Instr} {s t : State} (hs : s.mph = .tx) (ht : t.mph = .tx)
    (h : exec i s = .next t) :
    (i = .txb ∨ i = .tick ∨ i = .button) ∧ t.fb = s.fb ∧ (s.txi.toNat ≤ 6 → t.txi.toNat ≤ 6) := by
  cases i with
  | tick => obtain ⟨-, rfl⟩ := exec_tick_eq_next.mp h; simp
  | button => obtain rfl := exec_button_eq_next.mp h; simp
  | poll a b =>
    obtain ⟨⟨hmph, -⟩, -⟩ := exec_poll_eq_next.mp h
    simp [hs] at hmph
  | refresh =>
    obtain ⟨⟨hmph, -⟩, -⟩ := exec_refresh_eq_next.mp h
    simp [hs] at hmph
  | txb =>
    obtain ⟨⟨-, hlt⟩, rfl⟩ := exec_txb_eq_next.mp h
    refine ⟨.inl rfl, by simp, fun _ => ?_⟩
    change (s.txi + 1).toNat ≤ 6
    bv_omega
  | done => obtain ⟨-, rfl⟩ := exec_done_eq_next.mp h; simp at ht

/-- The schedule `is` from `s` to `t` splits at the step that began the transmission in flight in `t`: only TXB,
TICK and BUTTON came after it, and `FB` is the transmit word of the clock it left (R25). -/
def LoadedWithin (is : List Instr) (s t : State) : Prop :=
  ∃ (before after : List Instr) (i : Instr) (u v : State),
    is = before ++ i :: after ∧ execAll before s = .next u ∧ exec i u = .next v ∧
    execAll after v = .next t ∧ u.mph = .idle ∧ v.mph = .tx ∧
    (∀ j ∈ after, j = .txb ∨ j = .tick ∨ j = .button) ∧
    t.fb = transmitWord (encodeFrame v.ct.toNat)

theorem execAll_snoc_eq_next {is : List Instr} {i : Instr} {s u : State} :
    execAll (is ++ [i]) s = .next u ↔ ∃ t, execAll is s = .next t ∧ exec i t = .next u := by
  simp [execAll_append_eq_next, execAll_cons_eq_next]

/-- The last step of the schedule is the one that loaded the frame. -/
theorem loadedWithin_of_begins {is : List Instr} {i : Instr} {s u t : State} (his : execAll is s = .next u)
    (hi : exec i u = .next t) (hu : u.mph = .idle) (ht : t.mph = .tx) : LoadedWithin (is ++ [i]) s t :=
  ⟨is, [], i, u, t, rfl, his, hi, rfl, hu, ht, nofun, (exec_begins_transmission hu ht hi).2⟩

/-- One more step of the same transmission goes to the end of the steps after the loading one. -/
theorem LoadedWithin.snoc {is : List Instr} {i : Instr} {s w t : State} (hw : LoadedWithin is s w)
    (hi : exec i w = .next t) (hname : i = .txb ∨ i = .tick ∨ i = .button) (hfb : t.fb = w.fb) :
    LoadedWithin (is ++ [i]) s t := by
  obtain ⟨before, after, k, u, v, rfl, hbefore, hk, hafter, hu, hv, hnames, hload⟩ := hw
  refine ⟨before, after ++ [i], k, u, v, by simp, hbefore, hk,
    execAll_snoc_eq_next.mpr ⟨w, hafter, hi⟩, hu, hv, ?_, hfb.trans hload⟩
  simpa only [List.forall_mem_append, List.forall_mem_singleton] using ⟨hnames, hname⟩

/-- From an idle state every execution that ends in a transmission has loaded its frame within the execution.
By induction on the schedule from its end: the last step either began the transmission or went on with it. -/
theorem loadedWithin_of_execAll {is : List Instr} {s t : State} (hs : s.mph = .idle)
    (h : execAll is s = .next t) (ht : t.mph = .tx) : t.txi.toNat ≤ 6 ∧ LoadedWithin is s t := by
  induction is using List.reverseRecOn generalizing t with
  | nil =>
    cases h
    simp [hs] at ht
  | append_singleton is i ih =>
    obtain ⟨w, his, hi⟩ := execAll_snoc_eq_next.mp h
    cases hw : w.mph with
    | idle =>
      obtain ⟨htxi, -⟩ := exec_begins_transmission hw ht hi
      exact ⟨by simp [htxi], loadedWithin_of_begins his hi hw ht⟩
    | tx =>
      obtain ⟨hle, hloaded⟩ := ih his hw
      obtain ⟨hname, hfb, htxi⟩ := exec_within_transmission hw ht hi
      exact ⟨htxi hle, hloaded.snoc hi hname hfb⟩

/-- Settles O41: reset is idle, so the frame in flight was loaded within the execution; the pad and the low 44
bits are read off the transmit word. -/
theorem frameInFlightIsItsSnapshot : Obligations.FrameInFlightIsItsSnapshot := by
  intro is t h ht
  obtain ⟨htxi, before, after, i, u, v, his, hbefore, hi, hafter, hu, hv, hnames, hload⟩ :=
    loadedWithin_of_execAll rfl h ht
  exact ⟨htxi, hload ▸ transmitWord_pad _, before, after, i, u, v, his, hbefore, hi, hafter, hu, hv, hnames,
    hload ▸ transmitWord_low _⟩

end Sys2Proof.Machine
end

section
/-! PROOFS. What the environment holds (20_memory.md R33, R35, R41) and the order of the main context's steps
(R43). -/

namespace Sys2Proof.Machine

/-! ### One transmitted byte (R33) -/

/-- Settles O20: the chain after the event is `shiftIn` of the old one, whose value `shiftIn_toNat` gives. -/
theorem txByteShiftsChain : Obligations.TxByteShiftsChain := fun s b =>
  ⟨shiftIn_toNat s.sr b, rfl, rfl⟩

/-! ### The environment as a replay of the emitted events (R35, R44) -/

/-- From `s` to `t` some events were appended, and the chain and the display of `t` are the replay of exactly
those events from the ones of `s`. -/
def EnvReplays (s t : State) : Prop :=
  ∃ es, t.events = s.events ++ es ∧ (t.sr, t.disp) = es.foldl replayEvent (s.sr, s.disp)

/-- No event, and neither the chain nor the display touched. -/
theorem envReplays_of_env_eq {s t : State} (hev : t.events = s.events) (hsr : t.sr = s.sr)
    (hdisp : t.disp = s.disp) : EnvReplays s t :=
  ⟨[], by simp [hev], by simp [hsr, hdisp]⟩

/-- Delivering an event is replaying it. -/
theorem deliver_env (e : Event) (s : State) :
    ((deliver e s).sr, (deliver e s).disp) = replayEvent (s.sr, s.disp) e := by
  cases e <;> rfl

theorem emit_envReplays (e : Event) (s : State) : EnvReplays s (emit e s) := by
  refine ⟨[e], ?_, deliver_env e s⟩
  cases e <;> rfl

theorem EnvReplays.trans {s t u : State} (hst : EnvReplays s t) (htu : EnvReplays t u) : EnvReplays s u := by
  obtain ⟨es, hev, henv⟩ := hst
  obtain ⟨fs, hev', henv'⟩ := htu
  exact ⟨es ++ fs, by rw [hev', hev, List.append_assoc], by rw [henv', henv, List.foldl_append]⟩

/-- Each step emits at most one event, and writes the environment by that event alone. -/
theorem exec_envReplays {i : Instr} {s t : State} (h : exec i s = .next t) : EnvReplays s t := by
  cases i with
  | tick =>
    obtain ⟨-, rfl⟩ := exec_tick_eq_next.mp h
    exact emit_envReplays .strobe s
  | button =>
    obtain rfl := exec_button_eq_next.mp h
    rw [buttonHandler_of_mode]
    cases s.mode with
    | freeRunning => exact emit_envReplays .tickDisable s
    | editHours => exact envReplays_of_env_eq rfl rfl rfl
    | editMins => exact envReplays_of_env_eq rfl rfl rfl
    | editSecs => exact emit_envReplays .tickArm s
  | poll a b =>
    obtain ⟨-, ⟨-, rfl⟩ | ⟨-, u, -, rfl⟩⟩ := exec_poll_eq_next.mp h
    · exact envReplays_of_env_eq rfl rfl rfl
    · exact envReplays_of_env_eq (by simp) (by simp) (by simp)
  | refresh =>
    obtain ⟨-, rfl⟩ := exec_refresh_eq_next.mp h
    exact envReplays_of_env_eq (by simp) (by simp) (by simp)
  | txb =>
    obtain ⟨-, rfl⟩ := exec_txb_eq_next.mp h
    exact emit_envReplays (.txByte (currentByte s)) s
  | done =>
    obtain ⟨-, rfl⟩ := exec_done_eq_next.mp h
    cases ho : s.org with
    | free =>
      rw [finishFrame_of_free ho]
      exact envReplays_of_env_eq rfl rfl rfl
    | edit =>
      rw [finishFrame_of_edit ho]
      exact emit_envReplays .strobe s

/-- Settles O21: every step's environment is the replay of the events it appends, and replays compose along the
execution. -/
theorem environmentFollowsEvents : Obligations.EnvironmentFollowsEvents := fun _ s _ h =>
  execAll_keeps (P := EnvReplays s) (fun _ _ _ hs hi => hs.trans (exec_envReplays hi))
    (envReplays_of_env_eq rfl rfl rfl) h

/-! ### The chain while a frame is sent (R41) -/

/-- The chain `k` bytes after a start with chain `sr` and frame buffer `fb`, as R41's number. -/
def chainAfter (sr fb : TransmitWord) (k : Nat) : Nat :=
  (sr.toNat * 2 ^ (8 * k) + fb.toNat / 2 ^ (48 - 8 * k)) % 2 ^ 48

theorem chainAfter_zero (sr fb : TransmitWord) : chainAfter sr fb 0 = sr.toNat := by
  have := sr.isLt
  have := fb.isLt
  simp only [chainAfter, Nat.mul_zero, Nat.sub_zero, Nat.pow_zero]
  omega

/-- Shifting in byte `k` of the frame buffer takes the chain from `k` bytes sent to `k + 1`. -/
theorem shiftIn_chainAfter {sr₀ fb sr : TransmitWord} {k : Nat} (hk : k < 6)
    (hsr : sr.toNat = chainAfter sr₀ fb k) :
    (shiftIn sr (frameByte fb k)).toNat = chainAfter sr₀ fb (k + 1) := by
  rw [shiftIn_toNat, hsr, frameByte_toNat]
  exact sent_succ hk

/-- Only TXB writes the chain (R21's table). -/
theorem exec_keeps_sr_of_ne_txb {i : Instr} {s t : State} (hi : i ≠ .txb) (h : exec i s = .next t) :
    t.sr = s.sr := by
  cases i with
  | tick => obtain ⟨-, rfl⟩ := exec_tick_eq_next.mp h; simp
  | button => obtain rfl := exec_button_eq_next.mp h; simp
  | poll a b =>
    obtain ⟨-, ⟨-, rfl⟩ | ⟨-, u, -, rfl⟩⟩ := exec_poll_eq_next.mp h
    · rfl
    · simp
  | refresh => obtain ⟨-, rfl⟩ := exec_refresh_eq_next.mp h; simp
  | txb => exact absurd rfl hi
  | done => obtain ⟨-, rfl⟩ := exec_done_eq_next.mp h; simp

/-- `k` bytes of the frame that `s` has in flight stand in the chain of `t`; until the sixth is sent, `t` is
still within that transmission. After the sixth the transmission may have ended, and others begun. -/
def BytesSent (s : State) (k : Nat) (t : State) : Prop :=
  t.sr.toNat = chainAfter s.sr s.fb k ∧ (k < 6 → t.mph = .tx ∧ t.txi.toNat = k ∧ t.fb = s.fb)

theorem bytesSent_zero {s : State} (hmph : s.mph = .tx) (htxi : s.txi = 0) : BytesSent s 0 s :=
  ⟨(chainAfter_zero s.sr s.fb).symm, fun _ => ⟨hmph, by simp [htxi], rfl⟩⟩

/-- A TXB before the sixth byte sends the next one. -/
theorem BytesSent.txb {s u t : State} {k : Nat} (hu : BytesSent s k u) (hk : k < 6)
    (h : exec .txb u = .next t) : BytesSent s (k + 1) t := by
  obtain ⟨hsr, hflight⟩ := hu
  obtain ⟨hmph, htxi, hfb⟩ := hflight hk
  obtain ⟨-, rfl⟩ := exec_txb_eq_next.mp h
  refine ⟨?_, fun _ => ⟨hmph, ?_, hfb⟩⟩
  · simpa only [emit_txByte_sr, currentByte, hfb, htxi] using shiftIn_chainAfter hk hsr
  · change (u.txi + 1).toNat = k + 1
    bv_omega

/-- Before the sixth byte only TICK and BUTTON can come between two TXB steps, and neither touches the frame. -/
theorem exec_within_flight {i : Instr} {u t : State} (hi : i ≠ .txb) (hmph : u.mph = .tx)
    (htxi : u.txi.toNat < 6) (h : exec i u = .next t) : t.mph = .tx ∧ t.txi = u.txi ∧ t.fb = u.fb := by
  cases i with
  | tick => obtain ⟨-, rfl⟩ := exec_tick_eq_next.mp h; simp [hmph]
  | button => obtain rfl := exec_button_eq_next.mp h; simp [hmph]
  | poll a b =>
    obtain ⟨⟨hidle, -⟩, -⟩ := exec_poll_eq_next.mp h
    simp [hmph] at hidle
  | refresh =>
    obtain ⟨⟨hidle, -⟩, -⟩ := exec_refresh_eq_next.mp h
    simp [hmph] at hidle
  | txb => exact absurd rfl hi
  | done =>
    obtain ⟨⟨-, hsix⟩, -⟩ := exec_done_eq_next.mp h
    omega

/-- A step other than TXB sends nothing. -/
theorem BytesSent.of_ne_txb {i : Instr} {s u t : State} {k : Nat} (hu : BytesSent s k u) (hi : i ≠ .txb)
    (h : exec i u = .next t) : BytesSent s k t := by
  obtain ⟨hsr, hflight⟩ := hu
  refine ⟨by rw [exec_keeps_sr_of_ne_txb hi h, hsr], fun hk => ?_⟩
  obtain ⟨hmph, htxi, hfb⟩ := hflight hk
  obtain ⟨hmph', htxi', hfb'⟩ := exec_within_flight hi hmph (htxi ▸ hk) h
  exact ⟨hmph', htxi' ▸ htxi, hfb'.trans hfb⟩

/-- From the start of a transmission the bytes sent are counted by the TXB steps, up to six, whatever else is
interleaved. By induction on the schedule from its end. -/
theorem bytesSent_of_execAll {is : List Instr} {s t : State} (hmph : s.mph = .tx) (htxi : s.txi = 0)
    (hle : is.count .txb ≤ 6) (h : execAll is s = .next t) : BytesSent s (is.count .txb) t := by
  induction is using List.reverseRecOn generalizing t with
  | nil =>
    cases h
    exact bytesSent_zero hmph htxi
  | append_singleton is i ih =>
    obtain ⟨u, his, hi⟩ := execAll_snoc_eq_next.mp h
    rw [List.count_append] at hle ⊢
    have hu : BytesSent s (is.count .txb) u := ih (by omega) his
    by_cases htxb : i = .txb
    · subst htxb
      rw [List.count_singleton_self] at hle ⊢
      exact hu.txb (by omega) hi
    · simpa [List.count_singleton, htxb] using hu.of_ne_txb htxb hi

/-- Where the tick is armed, TICK runs and latches the chain, whatever it holds (R125). -/
theorem exec_tick_latches_chain {t : State} (hten : t.ten = true) :
    ∃ u, exec .tick t = .next u ∧ u.disp = t.sr.extractLsb' 0 44 :=
  ⟨tickHandler t, exec_tick_eq_next.mpr ⟨hten, rfl⟩, tickHandler_disp t⟩

/-- Settles O23: the chain is R41's mixture by counting the TXB steps, and the strobe of a TICK is
unconditional. -/
theorem partialFrameContents : Obligations.PartialFrameContents := by
  rintro is s t k hmph htxi rfl hle h
  exact ⟨(bytesSent_of_execAll hmph htxi hle h).1, exec_tick_latches_chain⟩

/-! ### Enabled steps are those whose guard holds (R43, R62) -/

theorem enabled_button (s : State) : Enabled .button s := ⟨_, exec_button_eq_next.mpr rfl⟩

/-- In range the guard of POLL alone decides: its adjust function has a value there. -/
theorem enabled_poll_iff {s : State} (hs : RangeInv s) {a b : Level} :
    Enabled (.poll a b) s ↔ s.mph = .idle ∧ s.mode ≠ .freeRunning := by
  constructor
  · rintro ⟨t, h⟩
    exact (exec_poll_eq_next.mp h).1
  · intro hguard
    by_cases ha : a = s.eph
    · exact ⟨s, exec_poll_eq_next.mpr ⟨hguard, .inl ⟨ha, rfl⟩⟩⟩
    · obtain ⟨u, hu⟩ := adjustField_isSome hguard.2 hs (direction a b)
      exact ⟨_, exec_poll_eq_next.mpr ⟨hguard, .inr ⟨ha, u, hu, rfl⟩⟩⟩

theorem enabled_refresh_iff {s : State} :
    Enabled .refresh s ↔ s.mph = .idle ∧ s.mode = .freeRunning ∧ s.rdy = false := by
  simp [Enabled, exec_refresh_eq_next]

theorem enabled_txb_iff {s : State} : Enabled .txb s ↔ s.mph = .tx ∧ s.txi.toNat < 6 := by
  simp [Enabled, exec_txb_eq_next]

theorem enabled_done_iff {s : State} : Enabled .done s ↔ s.mph = .tx ∧ s.txi.toNat = 6 := by
  simp [Enabled, exec_done_eq_next]

/-- In range a step is enabled exactly where its guard holds (R62). -/
theorem enabled_iff_guardHolds {i : Instr} {s : State} (hs : RangeInv s) : Enabled i s ↔ guardHolds i s := by
  cases i with
  | tick => exact enabled_tick_iff
  | button => exact iff_of_true (enabled_button s) trivial
  | poll a b => exact enabled_poll_iff hs
  | refresh => exact enabled_refresh_iff
  | txb => exact enabled_txb_iff
  | done => exact enabled_done_iff

/-- Settles O15: for each main-context step, its guard against the six phases of the main loop. -/
theorem mainContextOrder : Obligations.MainContextOrder := by
  intro s hs i hi
  simp only [enabled_iff_guardHolds hs]
  cases i with
  | tick => cases hi
  | button => cases hi
  | poll a b => simp +contextual [guardHolds]
  | refresh => simp +contextual [guardHolds]
  | txb => simp +contextual [guardHolds]
  | done =>
    simp +contextual [guardHolds]
    omega

end Sys2Proof.Machine
end

section
/-! PROOFS. The encodings (30_encoding.md): the label map and the reserved labels (R60, R61), false guards (R62)
and the field sum of a Frame (R55). -/

namespace Sys2Proof.Machine

/-! ### A false guard (R62) -/

/-- Whatever the clock holds, an enabled step's guard holds: each inversion of `exec` gives it. -/
theorem guardHolds_of_exec {i : Instr} {s t : State} (h : exec i s = .next t) : guardHolds i s := by
  cases i with
  | tick => exact (exec_tick_eq_next.mp h).1
  | button => trivial
  | poll a b => exact (exec_poll_eq_next.mp h).1
  | refresh => exact (exec_refresh_eq_next.mp h).1
  | txb => exact (exec_txb_eq_next.mp h).1
  | done => exact (exec_done_eq_next.mp h).1

/-- In an execution every step's guard holds where the schedule reaches it. -/
theorem guardHolds_of_execAll_append {before after : List Instr} {i : Instr} {s u t : State}
    (hu : execAll before s = .next u) (h : execAll (before ++ i :: after) s = .next t) : guardHolds i u := by
  obtain ⟨u', hu', h⟩ := execAll_append_eq_next.mp h
  obtain rfl : u = u' := by simpa [hu] using hu'
  obtain ⟨v, hi, -⟩ := execAll_cons_eq_next.mp h
  exact guardHolds_of_exec hi

theorem tick_ne_self (t : Nat) : tick t ≠ t := by
  rw [tick_eq]
  split <;> omega

theorem nextMode_ne_self (m : Mode) : nextMode m ≠ m := by
  cases m <;> decide

/-- TICK moves `CT`, BUTTON `MODE`, TXB `TXI`; REFRESH, DONE and a poll's detent move `MPH`. What is left is the
poll without a detent. -/
theorem exec_stationary_is_poll {i : Instr} {s t : State} (h : exec i s = .next t) (hct : t.ct = s.ct)
    (hmode : t.mode = s.mode) (hmph : t.mph = s.mph) (htxi : t.txi = s.txi) : ∃ b, i = .poll s.eph b := by
  cases i with
  | tick =>
    obtain ⟨-, rfl⟩ := exec_tick_eq_next.mp h
    exact absurd ((tickHandler_ct_toNat s).symm.trans (congrArg BitVec.toNat hct)) (tick_ne_self _)
  | button =>
    obtain rfl := exec_button_eq_next.mp h
    exact absurd ((buttonHandler_mode s).symm.trans hmode) (nextMode_ne_self _)
  | poll a b =>
    obtain ⟨⟨hidle, -⟩, ⟨rfl, -⟩ | ⟨-, u, -, rfl⟩⟩ := exec_poll_eq_next.mp h
    · exact ⟨b, rfl⟩
    · simp [hidle] at hmph
  | refresh =>
    obtain ⟨⟨hidle, -⟩, rfl⟩ := exec_refresh_eq_next.mp h
    simp [hidle] at hmph
  | txb =>
    obtain ⟨-, rfl⟩ := exec_txb_eq_next.mp h
    change s.txi + 1 = s.txi at htxi
    bv_omega
  | done =>
    obtain ⟨⟨htx, -⟩, rfl⟩ := exec_done_eq_next.mp h
    simp [htx] at hmph

/-- Settles O13: a transition, alone or within an execution, has its guard; in range the guard suffices; and the
steps other than a poll without a detent each move one of the four elements. -/
theorem falseGuardHasNoTransition : Obligations.FalseGuardHasNoTransition :=
  ⟨fun _ _ hguard ⟨_, h⟩ => hguard (guardHolds_of_exec h),
    fun _ _ hs => enabled_iff_guardHolds hs,
    fun _ _ _ _ _ _ hu hguard h => hguard (guardHolds_of_execAll_append hu h),
    fun _ _ _ h => exec_stationary_is_poll h⟩

/-! ### The field sum of a Frame (R55) -/

/-- Settles O32: fields side by side add up at their places, and the code of a legal digit is a power of two
within its field. -/
theorem packIsTheFieldSum : Obligations.PackIsTheFieldSum := by
  intro d hd
  obtain ⟨h1, h0, m1, m0, s1, s0⟩ := digits_wf_bounds hd
  simp only [pack, append_toNat, onehot_toNat_two _ h1, onehot_toNat _ h0, onehot_toNat_six _ m1,
    onehot_toNat _ m0, onehot_toNat_six _ s1, onehot_toNat _ s0]
  ring

/-! ### The label map and the reserved labels (R60, R61) -/

/-- The nine steps: six operations, POLL with four operand pairs (R60). -/
def allSteps : List Instr :=
  [.tick, .button, .poll false false, .poll false true, .poll true false, .poll true true, .refresh, .txb, .done]

theorem mem_allSteps (i : Instr) : i ∈ allSteps := by
  cases i with
  | poll a b => cases a <;> cases b <;> decide
  | tick | button | refresh | txb | done => decide

/-- The labels of the nine steps, as R60 lists them. -/
theorem allSteps_labels : allSteps.map encodeLabel =
    [0x10#8, 0x20#8, 0x30#8, 0x31#8, 0x32#8, 0x33#8, 0x40#8, 0x50#8, 0x60#8] := rfl

theorem decodeLabel_encodeLabel (i : Instr) : decodeLabel (encodeLabel i) = .ok i := by
  cases i with
  | tick => exact (Laws.LabelFields.tick rfl).2.2
  | button => exact (Laws.LabelFields.button rfl).2.2
  | poll a b => exact (Laws.LabelFields.poll a b rfl).2.2
  | refresh => exact (Laws.LabelFields.refresh rfl).2.2
  | txb => exact (Laws.LabelFields.txb rfl).2.2
  | done => exact (Laws.LabelFields.done rfl).2.2

/-- A byte decodes to a step exactly if it is the label of one of the nine. -/
theorem exists_decodeLabel_iff_mem {l : Byte} :
    (∃ i, decodeLabel l = .ok i) ↔
      l ∈ [0x10#8, 0x20#8, 0x30#8, 0x31#8, 0x32#8, 0x33#8, 0x40#8, 0x50#8, 0x60#8] := by
  rw [← allSteps_labels, List.mem_map]
  constructor
  · rintro ⟨i, h⟩
    exact ⟨i, mem_allSteps i, encodeLabel_of_decodeLabel h⟩
  · rintro ⟨i, -, rfl⟩
    exact ⟨i, decodeLabel_encodeLabel i⟩

/-- Settles O1: each listed label is its step's own, which the decoder reads back; the closing equivalence is
`exists_decodeLabel_iff_mem`. -/
theorem stepLabelMap : Obligations.StepLabelMap :=
  ⟨decodeLabel_encodeLabel .tick, decodeLabel_encodeLabel .button,
    decodeLabel_encodeLabel (.poll false false), decodeLabel_encodeLabel (.poll false true),
    decodeLabel_encodeLabel (.poll true false), decodeLabel_encodeLabel (.poll true true),
    decodeLabel_encodeLabel .refresh, decodeLabel_encodeLabel .txb, decodeLabel_encodeLabel .done,
    context_tick, context_button, context_poll, context_refresh, context_txb, context_done,
    fun _ => exists_decodeLabel_iff_mem⟩

theorem decode_cons_of_error {l : Byte} {rest : List Byte} {e : LabelError} (h : decodeLabel l = .error e) :
    decode (l :: rest) = .error e := by
  simp only [decode, h]

theorem fetch_of_decode_error {s : State} {l : Byte} {rest : List Byte} {e : LabelError}
    (hs : s.sched = l :: rest) (h : decode (l :: rest) = .error e) : fetch s = .error e := by
  simp only [fetch, hs, h]

/-- Settles O2: a byte outside the list decodes to no step, so the decoder names an error; the fetch hands it on,
and the step refuses with it. -/
theorem reservedLabelsAreRefused : Obligations.ReservedLabelsAreRefused := by
  intro l hl
  cases h : decodeLabel l with
  | ok i => exact absurd (exists_decodeLabel_iff_mem.mp ⟨i, h⟩) hl
  | error e =>
    exact ⟨e, rfl, fun s rest hs => step_of_fetch_error (fetch_of_decode_error hs (decode_cons_of_error h))⟩

end Sys2Proof.Machine
end

section
/-! PROOFS. The TimeCounter (40_timecounter.md R71 to R77): each adjust function moves one field of the time around
its cycle and keeps the other two, and `tick` goes around the twelve hours. -/

namespace Sys2Proof.Machine

/-! ### The cyclic move of a field (R72 to R74) -/

/-- What one move adds to a field of modulus `n` (R78). -/
def fieldStep (n : Nat) : Direction → Nat
  | .inc => 1
  | .dec => n - 1

theorem moveField_eq_add_mod (n : Nat) (d : Direction) (x : Nat) : moveField n d x = (x + fieldStep n d) % n := by
  cases d <;> rfl

/-- The two directions add up to one full turn. -/
theorem fieldStep_add_fieldStep {n : Nat} (hn : 0 < n) {d d' : Direction} (hd : d ≠ d') :
    fieldStep n d + fieldStep n d' = n := by
  match d, d', hd with
  | .inc, .dec, _ => exact Nat.add_sub_cancel' hn
  | .dec, .inc, _ => exact Nat.sub_add_cancel hn

theorem moveField_opposite {n x : Nat} (hx : x < n) {d d' : Direction} (hd : d ≠ d') :
    moveField n d' (moveField n d x) = x := by
  rw [moveField_eq_add_mod, moveField_eq_add_mod, Nat.mod_add_mod, Nat.add_assoc,
    fieldStep_add_fieldStep (Nat.zero_lt_of_lt hx) hd, Nat.add_mod_right, Nat.mod_eq_of_lt hx]

theorem moveField_iterate {n x : Nat} (hx : x < n) (d : Direction) (k : Nat) :
    (moveField n d)^[k] x = (x + k * fieldStep n d) % n := by
  induction k with
  | zero => simp [Nat.mod_eq_of_lt hx]
  | succ k ih =>
    rw [Function.iterate_succ_apply', ih, moveField_eq_add_mod, Nat.mod_add_mod, Nat.add_assoc, Nat.succ_mul]

theorem moveField_full_turn {n x : Nat} (hx : x < n) (d : Direction) : (moveField n d)^[n] x = x := by
  rw [moveField_iterate hx, Nat.add_mul_mod_self_left, Nat.mod_eq_of_lt hx]

/-! ### One field moves, the rest stays -/

/-- Hours, minutes and seconds determine the time (R70). -/
theorem time_ext {t u : Nat} (hh : hoursOf t = hoursOf u) (hm : minsOf t = minsOf u) (hs : secsOf t = secsOf u) :
    t = u := by
  simp only [hoursOf, minsOf, secsOf] at hh hm hs
  omega

/-- On the legal times `f` moves `field`, of modulus `n`, in the given direction, keeps the `rest` of the time and
stays legal; `field` and `rest` together are the whole time. -/
structure MovesField (f : Nat → Direction → Option Nat) (n : Nat) (field : Nat → Nat) (rest : Nat → Nat × Nat) :
    Prop where
  field_lt : ∀ {t}, t ≤ 43199 → field t < n
  moves : ∀ {t}, t ≤ 43199 → ∀ d,
    ∃ u, f t d = some u ∧ u ≤ 43199 ∧ field u = moveField n d (field t) ∧ rest u = rest t
  ext : ∀ {t u}, field t = field u → rest t = rest u → t = u

theorem adjustHour_movesField : MovesField adjustHour 12 hoursOf (fun t => (minsOf t, secsOf t)) where
  field_lt ht := by
    simp only [hoursOf]
    omega
  moves {t} ht d := by
    have hlt := moveField_lt (n := 12) (by omega) d (hoursOf t)
    refine ⟨_, adjustHour_eq ht d, ?_⟩
    simp only [hoursOf, minsOf, secsOf, Prod.mk.injEq] at hlt ⊢
    omega
  ext hfield hrest := time_ext hfield (Prod.mk.inj hrest).1 (Prod.mk.inj hrest).2

theorem adjustMinute_movesField : MovesField adjustMinute 60 minsOf (fun t => (hoursOf t, secsOf t)) where
  field_lt _ := Nat.mod_lt _ (by omega)
  moves {t} ht d := by
    have hlt := moveField_lt (n := 60) (by omega) d (minsOf t)
    refine ⟨_, adjustMinute_eq ht d, ?_⟩
    simp only [hoursOf, minsOf, secsOf, Prod.mk.injEq] at hlt ⊢
    omega
  ext hfield hrest := time_ext (Prod.mk.inj hrest).1 hfield (Prod.mk.inj hrest).2

theorem adjustSecond_movesField : MovesField adjustSecond 60 secsOf (fun t => (hoursOf t, minsOf t)) where
  field_lt _ := Nat.mod_lt _ (by omega)
  moves {t} ht d := by
    have hlt := moveField_lt (n := 60) (by omega) d (secsOf t)
    refine ⟨_, adjustSecond_eq ht d, ?_⟩
    simp only [hoursOf, minsOf, secsOf, Prod.mk.injEq] at hlt ⊢
    omega
  ext hfield hrest := time_ext (Prod.mk.inj hrest).1 (Prod.mk.inj hrest).2 hfield

namespace MovesField

variable {f : Nat → Direction → Option Nat} {n : Nat} {field : Nat → Nat} {rest : Nat → Nat × Nat}

theorem bind_opposite (h : MovesField f n field rest) {t : Nat} (ht : t ≤ 43199) {d d' : Direction} (hd : d ≠ d') :
    (f t d).bind (fun u => f u d') = some t := by
  obtain ⟨u, hu, hule, hufield, hurest⟩ := h.moves ht d
  obtain ⟨v, hv, -, hvfield, hvrest⟩ := h.moves hule d'
  have hfield : field v = field t := by rw [hvfield, hufield, moveField_opposite (h.field_lt ht) hd]
  rw [hu, Option.bind_some, hv, h.ext hfield (hvrest.trans hurest)]

theorem iterate (h : MovesField f n field rest) {t : Nat} (ht : t ≤ 43199) (d : Direction) (k : Nat) :
    ∃ u, (fun o => o.bind (fun u => f u d))^[k] (some t) = some u ∧ u ≤ 43199 ∧
      field u = (moveField n d)^[k] (field t) ∧ rest u = rest t := by
  induction k with
  | zero => exact ⟨t, rfl, ht, rfl, rfl⟩
  | succ k ih =>
    obtain ⟨u, hu, hule, hufield, hurest⟩ := ih
    obtain ⟨v, hv, hvle, hvfield, hvrest⟩ := h.moves hule d
    refine ⟨v, ?_, hvle, ?_, hvrest.trans hurest⟩
    · rw [Function.iterate_succ_apply', hu, Option.bind_some, hv]
    · rw [Function.iterate_succ_apply', hvfield, hufield]

theorem full_turn (h : MovesField f n field rest) {t : Nat} (ht : t ≤ 43199) (d : Direction) :
    (fun o => o.bind (fun u => f u d))^[n] (some t) = some t := by
  obtain ⟨u, hu, -, hfield, hrest⟩ := h.iterate ht d n
  rw [moveField_full_turn (h.field_lt ht)] at hfield
  rw [hu, h.ext hfield hrest]

end MovesField

/-- Each of the three adjust functions moves one field. -/
theorem movesField_of_mem {f : Nat → Direction → Option Nat} (hf : f ∈ [adjustHour, adjustMinute, adjustSecond]) :
    ∃ n field rest, MovesField f n field rest := by
  simp only [List.mem_cons, List.not_mem_nil, or_false] at hf
  obtain rfl | rfl | rfl := hf
  · exact ⟨_, _, _, adjustHour_movesField⟩
  · exact ⟨_, _, _, adjustMinute_movesField⟩
  · exact ⟨_, _, _, adjustSecond_movesField⟩

/-- Settles O27: the rest that each function keeps is the two fields it is not for. -/
theorem adjustPreservesOtherFields : Obligations.AdjustPreservesOtherFields := by
  intro t d ht
  obtain ⟨h, hh, -, -, hhrest⟩ := adjustHour_movesField.moves ht d
  obtain ⟨m, hm, -, -, hmrest⟩ := adjustMinute_movesField.moves ht d
  obtain ⟨x, hx, -, -, hxrest⟩ := adjustSecond_movesField.moves ht d
  exact ⟨⟨h, hh, Prod.mk.inj hhrest⟩, ⟨m, hm, Prod.mk.inj hmrest⟩, ⟨x, hx, Prod.mk.inj hxrest⟩⟩

/-- Settles O28: opposite moves cancel modulo the field's modulus, and as many moves as the modulus are a full turn;
the rest of the time is kept throughout. -/
theorem adjustInverse : Obligations.AdjustInverse := by
  intro t ht
  refine ⟨fun f hf => ?_, adjustHour_movesField.full_turn ht, adjustMinute_movesField.full_turn ht,
    adjustSecond_movesField.full_turn ht⟩
  obtain ⟨_, _, _, h⟩ := movesField_of_mem hf
  exact ⟨h.bind_opposite ht (by decide), h.bind_opposite ht (by decide)⟩

/-! ### The cycle of `tick` (R71, R77) -/

theorem tick_of_out_of_range {t : Nat} (h : 43200 ≤ t) : tick t = 0 := by
  rw [tick_eq, if_pos (by omega)]

/-- `k` ticks are one addition modulo 43200. -/
theorem tick_iterate {t : Nat} (ht : t ≤ 43199) (k : Nat) : tick^[k] t = (t + k) % 43200 := by
  induction k with
  | zero => exact (Nat.mod_eq_of_lt (Nat.lt_succ_of_le ht)).symm
  | succ k ih =>
    have hle : (t + k) % 43200 ≤ 43199 := by omega
    rw [Function.iterate_succ_apply', ih, tick_eq_mod hle, Nat.mod_add_mod, Nat.add_assoc]

/-- Settles O29: a tick and each adjust function stay in range, and 43200 ticks add one full turn. -/
theorem timeCounterClosureAndCycle : Obligations.TimeCounterClosureAndCycle := by
  intro t ht
  refine ⟨tick_le t, fun f hf d => ?_, ?_⟩
  · obtain ⟨_, _, _, h⟩ := movesField_of_mem hf
    obtain ⟨u, hu, hule, -⟩ := h.moves ht d
    exact ⟨u, hu, hule⟩
  · rw [tick_iterate ht, Nat.add_mod_right, Nat.mod_eq_of_lt (Nat.lt_succ_of_le ht)]

/-- Settles O26: the defining equation, the bound, and the two ranges in closed form. -/
theorem tickFunctionValue : Obligations.TickFunctionValue :=
  fun t _ => ⟨tick_eq t, tick_le t, tick_eq_mod, tick_of_out_of_range⟩

end Sys2Proof.Machine
end

section
/-! PROOFS. The DigitEncoder (41_digit_encoder.md R80 to R90): the digits of a time are legal and spell the time, and
the Frame of legal digits holds each digit as the one bit of its field. -/

namespace Sys2Proof.Machine

/-! ### The digits of a time (R80, R81) -/

theorem displayHour_eq (t : Nat) : displayHour t = if t / 3600 = 0 then 12 else t / 3600 := rfl

theorem displayHour_bounds {t : Nat} (ht : t ≤ 43199) : 1 ≤ displayHour t ∧ displayHour t ≤ 12 := by
  rw [displayHour_eq]
  split <;> omega

/-- Hour 12 is shown for hour field 0 alone. -/
theorem hoursOf_eq_of_displayHour_eq {t u : Nat} (ht : t ≤ 43199) (hu : u ≤ 43199)
    (h : displayHour t = displayHour u) : hoursOf t = hoursOf u := by
  rw [displayHour_eq, displayHour_eq] at h
  change t / 3600 = u / 3600
  split at h <;> split at h <;> omega

/-- A two-digit number's tens and ones fit four bits each. -/
theorem ofNat_tens_ones_toNat {n : Nat} (hn : n < 100) :
    (BitVec.ofNat 4 (n / 10)).toNat = n / 10 ∧ (BitVec.ofNat 4 (n % 10)).toNat = n % 10 := by
  rw [BitVec.toNat_ofNat, BitVec.toNat_ofNat]
  omega

theorem digits_hour_toNat {t : Nat} (ht : t ≤ 43199) :
    (digits t).h1.toNat = displayHour t / 10 ∧ (digits t).h0.toNat = displayHour t % 10 :=
  ofNat_tens_ones_toNat ((displayHour_bounds ht).2.trans_lt (by omega))

theorem minsOf_lt (t : Nat) : minsOf t < 60 := Nat.mod_lt _ (by omega)

theorem secsOf_lt (t : Nat) : secsOf t < 60 := Nat.mod_lt _ (by omega)

theorem digits_minute_toNat (t : Nat) :
    (digits t).m1.toNat = minsOf t / 10 ∧ (digits t).m0.toNat = minsOf t % 10 :=
  ofNat_tens_ones_toNat ((minsOf_lt t).trans (by omega))

theorem digits_second_toNat (t : Nat) :
    (digits t).s1.toNat = secsOf t / 10 ∧ (digits t).s0.toNat = secsOf t % 10 :=
  ofNat_tens_ones_toNat ((secsOf_lt t).trans (by omega))

theorem digits_wf {t : Nat} (ht : t ≤ 43199) : (digits t).wf = true := by
  obtain ⟨h1, h0⟩ := digits_hour_toNat ht
  obtain ⟨m1, m0⟩ := digits_minute_toNat t
  obtain ⟨s1, s0⟩ := digits_second_toNat t
  have hh := displayHour_bounds ht
  have hm := minsOf_lt t
  have hs := secsOf_lt t
  simp only [Digits.wf, h1, h0, m1, m0, s1, s0, Bool.and_eq_true, decide_eq_true_eq]
  omega

/-- The digits of a time spell its displayed hour, its minute and its second. -/
theorem digits_spell_time {t : Nat} (ht : t ≤ 43199) :
    10 * (digits t).h1.toNat + (digits t).h0.toNat = displayHour t ∧
    10 * (digits t).m1.toNat + (digits t).m0.toNat = minsOf t ∧
    10 * (digits t).s1.toNat + (digits t).s0.toNat = secsOf t := by
  obtain ⟨h1, h0⟩ := digits_hour_toNat ht
  obtain ⟨m1, m0⟩ := digits_minute_toNat t
  obtain ⟨s1, s0⟩ := digits_second_toNat t
  rw [h1, h0, m1, m0, s1, s0]
  exact ⟨Nat.div_add_mod _ 10, Nat.div_add_mod _ 10, Nat.div_add_mod _ 10⟩

/-- The digits determine the time. -/
theorem digits_injective {t u : Nat} (ht : t ≤ 43199) (hu : u ≤ 43199) (h : digits t = digits u) : t = u := by
  obtain ⟨hht, hmt, hst⟩ := digits_spell_time ht
  obtain ⟨hhu, hmu, hsu⟩ := digits_spell_time hu
  rw [h] at hht hmt hst
  exact time_ext (hoursOf_eq_of_displayHour_eq ht hu (hht.symm.trans hhu)) (hmt.symm.trans hmu)
    (hst.symm.trans hsu)

/-- Settles O31: the tens and ones of each two-digit number, each within its digit's range. -/
theorem digitsAreTheDisplayedTime : Obligations.DigitsAreTheDisplayedTime :=
  fun _ ht => ⟨digits_wf ht, digits_spell_time ht⟩

/-! ### The fields of a Frame of legal digits (R83, R87) -/

theorem decodeFrame_pack {d : Digits} (hd : d.wf = true) : decodeFrame (pack d) = some d := by
  obtain ⟨h1, h0, m1, m0, s1, s0⟩ := digits_wf_bounds hd
  obtain ⟨fh1, fh0, fm1, fm0, fs1, fs0⟩ := fields_of_pack d
  simp only [decodeFrame, fh1, fh0, fm1, fm0, fs1, fs0, fieldPos_onehot_two _ h1, fieldPos_onehot _ h0,
    fieldPos_onehot_six _ m1, fieldPos_onehot _ m0, fieldPos_onehot_six _ s1, fieldPos_onehot _ s0, if_pos hd]

theorem decodeFrame_encodeFrame {t : Nat} (ht : t ≤ 43199) : decodeFrame (encodeFrame t) = some (digits t) :=
  decodeFrame_pack (digits_wf ht)

/-- Settles O34: each field's one bit is at its digit's place; equal frames then decode to equal digits, which
determine the time. -/
theorem frameRoundTrip : Obligations.FrameRoundTrip := by
  refine ⟨fun t ht => decodeFrame_encodeFrame ht, fun t u ht hu h => digits_injective ht hu (Option.some.inj ?_)⟩
  rw [← decodeFrame_encodeFrame ht, h, decodeFrame_encodeFrame hu]

/-- Each field of legal digits has one bit. -/
theorem popcount_fields_pack {d : Digits} (hd : d.wf = true) :
    popcount (fieldH1 (pack d)) = 1 ∧ popcount (fieldH0 (pack d)) = 1 ∧ popcount (fieldM1 (pack d)) = 1 ∧
    popcount (fieldM0 (pack d)) = 1 ∧ popcount (fieldS1 (pack d)) = 1 ∧ popcount (fieldS0 (pack d)) = 1 := by
  obtain ⟨h1, h0, m1, m0, s1, s0⟩ := digits_wf_bounds hd
  obtain ⟨fh1, fh0, fm1, fm0, fs1, fs0⟩ := fields_of_pack d
  rw [fh1, fh0, fm1, fm0, fs1, fs0]
  exact ⟨popcount_onehot_two _ h1, popcount_onehot _ h0, popcount_onehot_six _ m1, popcount_onehot _ m0,
    popcount_onehot_six _ s1, popcount_onehot _ s0⟩

/-- The fields side by side are the whole Frame (R52). -/
theorem popcount_pack_eq_sum (d : Digits) :
    popcount (pack d) = popcount (fieldH1 (pack d)) + popcount (fieldH0 (pack d)) + popcount (fieldM1 (pack d)) +
      popcount (fieldM0 (pack d)) + popcount (fieldS1 (pack d)) + popcount (fieldS0 (pack d)) := by
  obtain ⟨fh1, fh0, fm1, fm0, fs1, fs0⟩ := fields_of_pack d
  rw [fh1, fh0, fm1, fm0, fs1, fs0]
  simp only [pack, popcount_append]

/-- Settles O33: the six codes have one bit each and are the whole Frame; the bound is the Frame's width. -/
theorem oneBitPerField : Obligations.OneBitPerField := by
  intro t ht
  obtain ⟨h1, h0, m1, m0, s1, s0⟩ := popcount_fields_pack (digits_wf ht)
  have six : popcount (encodeFrame t) = 6 := by
    rw [encodeFrame, popcount_pack_eq_sum, h1, h0, m1, m0, s1, s0]
  exact ⟨h1, h0, m1, m0, s1, s0, six, (encodeFrame t).isLt, transmitWord_pad _⟩

/-! ### The byte pairs of a transmit word (R56, R90) -/

/-- Two bytes in a row are 16 bits of the transmit word. -/
theorem frameByte_append_toNat (w : TransmitWord) {i : Nat} (hi : i ≤ 4) :
    (frameByte w i ++ frameByte w (i + 1)).toNat = w.toNat / 2 ^ (32 - 8 * i) % 2 ^ 16 := by
  have adjacent : 40 - 8 * i = 40 - 8 * (i + 1) + 8 := by omega
  have low : 40 - 8 * (i + 1) = 32 - 8 * i := by omega
  rw [frameByte, frameByte, BitVec.extractLsb'_append_extractLsb'_eq_extractLsb' adjacent,
    BitVec.extractLsb'_toNat, Nat.shiftRight_eq_div_pow, low]

/-- Each byte pair is a tens field above a ones field. -/
theorem bytePairs_toNat (f : Frame) :
    (frameByte (transmitWord f) 0 ++ frameByte (transmitWord f) 1).toNat =
      (fieldH1 f).toNat * 1024 + (fieldH0 f).toNat ∧
    (frameByte (transmitWord f) 2 ++ frameByte (transmitWord f) 3).toNat =
      (fieldM1 f).toNat * 1024 + (fieldM0 f).toNat ∧
    (frameByte (transmitWord f) 4 ++ frameByte (transmitWord f) 5).toNat =
      (fieldS1 f).toNat * 1024 + (fieldS0 f).toNat := by
  have hf := f.isLt
  rw [frameByte_append_toNat _ (i := 0) (by omega), frameByte_append_toNat _ (i := 2) (by omega),
    frameByte_append_toNat _ (i := 4) (by omega), transmitWord_toNat]
  simp only [fieldH1, fieldH0, fieldM1, fieldM0, fieldS1, fieldS0, BitVec.extractLsb'_toNat,
    Nat.shiftRight_eq_div_pow]
  omega

/-- The fields of legal digits as numbers: the place of a field's one bit is its digit. -/
theorem fields_pack_toNat {d : Digits} (hd : d.wf = true) :
    (fieldH1 (pack d)).toNat = 2 ^ d.h1.toNat ∧ (fieldH0 (pack d)).toNat = 2 ^ d.h0.toNat ∧
    (fieldM1 (pack d)).toNat = 2 ^ d.m1.toNat ∧ (fieldM0 (pack d)).toNat = 2 ^ d.m0.toNat ∧
    (fieldS1 (pack d)).toNat = 2 ^ d.s1.toNat ∧ (fieldS0 (pack d)).toNat = 2 ^ d.s0.toNat := by
  obtain ⟨h1, h0, m1, m0, s1, s0⟩ := digits_wf_bounds hd
  obtain ⟨fh1, fh0, fm1, fm0, fs1, fs0⟩ := fields_of_pack d
  rw [fh1, fh0, fm1, fm0, fs1, fs0]
  exact ⟨onehot_toNat_two _ h1, onehot_toNat _ h0, onehot_toNat_six _ m1, onehot_toNat _ m0,
    onehot_toNat_six _ s1, onehot_toNat _ s0⟩

/-- Settles O36: a byte pair is a tens field above a ones field, and the two fields are the codes of the tens and
ones of one quantity. -/
theorem bytePairs : Obligations.BytePairs := by
  rintro t ht _ rfl
  obtain ⟨fh1, fh0, fm1, fm0, fs1, fs0⟩ := fields_pack_toNat (digits_wf ht)
  obtain ⟨h1, h0⟩ := digits_hour_toNat ht
  obtain ⟨m1, m0⟩ := digits_minute_toNat t
  obtain ⟨s1, s0⟩ := digits_second_toNat t
  have pairs := bytePairs_toNat (pack (digits t))
  rwa [fh1, fh0, fm1, fm0, fs1, fs0, h1, h0, m1, m0, s1, s0] at pairs

end Sys2Proof.Machine
end

section
/-! PROOFS. The frame serializer (42_frame_serializer.md): the steps REFRESH, TXB and DONE (R96 to R98), and the
whole frame in the chain (R101). -/

namespace Sys2Proof.Machine

/-! ### The whole frame in the chain (R101) -/

/-- Six bytes push out all 48 old bits of the chain and leave exactly the frame buffer. -/
theorem chainAfter_six (sr fb : TransmitWord) : chainAfter sr fb 6 = fb.toNat := by
  have := fb.isLt
  simp only [chainAfter, Nat.reduceMul, Nat.reduceSub, Nat.pow_zero]
  omega

/-- Settles O22: by `bytesSent_of_execAll` the six TXB steps send the six bytes of `FB`, whatever is interleaved,
and the low 44 bits of a transmit word are its frame. -/
theorem wholeFrameReachesChain : Obligations.WholeFrameReachesChain := by
  intro is s t c hmph htxi hfb hsix h
  have hsent : BytesSent s 6 t := hsix ▸ bytesSent_of_execAll hmph htxi hsix.le h
  have hsr : t.sr = s.fb := BitVec.eq_of_toNat_eq (hsent.1.trans (chainAfter_six s.sr s.fb))
  have hlow : t.sr.extractLsb' 0 44 = encodeFrame c := by rw [hsr, hfb, transmitWord_low]
  exact ⟨hsr, hlow, (emit_strobe_disp t).trans hlow⟩

/-! ### REFRESH (R96) -/

/-- The clamp writes `CT` alone (R86). -/
theorem clampClock_eq (s : State) :
    clampClock s = { s with ct := if s.ct.toNat ≥ 43200 then 0 else s.ct } := by
  unfold clampClock
  split <;> rfl

/-- A loaded state in full, whatever `CT` holds; `loadFrame_of_range` is its case in range. -/
theorem loadFrame_eq (o : Origin) (s : State) :
    loadFrame o s =
      { s with
        ct := if s.ct.toNat ≥ 43200 then 0 else s.ct
        fb := transmitWord (encodeFrame (snapshot s))
        txi := 0
        org := o
        mph := .tx } := by
  rw [loadFrame, encodeOp, clampClock_eq]

/-- Settles O10: inside the guard the effect is `loadFrame`, whose clamp and snapshot `loadFrame_eq` spells out;
outside it REFRESH is not enabled. -/
theorem refreshStep : Obligations.RefreshStep := by
  refine ⟨decodeLabel_encodeLabel .refresh, context_refresh, fun s => ⟨fun hmph hmode hrdy => ?_, ?_⟩⟩
  · exact exec_refresh_eq_next.mpr ⟨⟨hmph, hmode, hrdy⟩, loadFrame_eq .free s⟩
  · exact mt enabled_refresh_iff.mp

/-! ### TXB (R97) -/

/-- Up to the sixth byte the 3-bit index counts without wrapping. -/
theorem txi_succ_toNat {x : BitVec 3} (hx : x.toNat < 6) : (x + 1).toNat = x.toNat + 1 := by
  bv_omega

/-- The state after TXB in full: the byte of `FB` at the index enters the chain at its low end and is recorded. -/
theorem txb_state_eq (s : State) :
    { emit (.txByte (currentByte s)) s with txi := s.txi + 1 } =
      { s with
        sr := s.sr.extractLsb' 0 40 ++ (s.fb >>> (40 - 8 * s.txi.toNat)).setWidth 8
        txi := s.txi + 1
        events := s.events ++ [.txByte ((s.fb >>> (40 - 8 * s.txi.toNat)).setWidth 8)] } := by
  rw [currentByte, frameByte_eq_shift]
  rfl

/-- Settles O11: inside the guard the effect is `txb_state_eq` and the index does not wrap; outside it TXB is not
enabled. -/
theorem txbStep : Obligations.TxbStep := by
  refine ⟨decodeLabel_encodeLabel .txb, context_txb, fun s => ⟨fun hmph htxi => ⟨?_, ?_⟩, ?_⟩⟩
  · exact exec_txb_eq_next.mpr ⟨⟨hmph, htxi⟩, txb_state_eq s⟩
  · exact txi_succ_toNat htxi
  · exact mt enabled_txb_iff.mp

/-! ### DONE (R98) -/

/-- Settles O12: inside the guard the origin decides what `finishFrame` does, the ready flag or the strobe;
outside it DONE is not enabled. -/
theorem doneStep : Obligations.DoneStep := by
  refine ⟨decodeLabel_encodeLabel .done, context_done, fun s => ⟨fun hmph htxi horg => ?free,
    fun hmph htxi horg => ?edit, mt enabled_done_iff.mp⟩⟩
  case free =>
    refine exec_done_eq_next.mpr ⟨⟨hmph, htxi⟩, ?_⟩
    rw [finishFrame_of_free horg, setReady]
  case edit =>
    refine exec_done_eq_next.mpr ⟨⟨hmph, htxi⟩, ?_⟩
    rw [finishFrame_of_edit horg]
    rfl

end Sys2Proof.Machine
end

section
/-! PROOFS. The mode controller (43_mode_controller.md): the steps BUTTON and POLL (R111, R113), the cycle of four
presses (R115), the clock under edit (R116) and the edit that is shown at once (R117). -/

namespace Sys2Proof.Machine

/-! ### BUTTON (R111) -/

/-- Settles O8: `buttonHandler_of_mode` gives the effect in each mode; where the TickSource is reconfigured the event
is spelled out. -/
theorem buttonStep : Obligations.ButtonStep := by
  refine ⟨decodeLabel_encodeLabel .button, context_button, fun s => exec_button_eq_next.mpr ?_⟩
  rw [buttonHandler_of_mode]
  cases s.mode <;> rfl

/-! ### POLL (R113) -/

theorem encodeLabel_poll (a b : Level) :
    encodeLabel (.poll a b) = 0x30#8 + (if a then 2#8 else 0#8) + (if b then 1#8 else 0#8) := by
  cases a <;> cases b <;> rfl

/-- What a field of modulus `n` moves by, read off the two channels (R112, R78). -/
theorem moveField_direction (n : Nat) (a b : Level) (x : Nat) :
    moveField n (direction a b) x = (x + if a ≠ b then 1 else n - 1) % n := by
  rw [moveField_eq_add_mod, direction]
  split <;> rfl

/-- Inside its guard a poll that sees no detent changes nothing. -/
theorem exec_poll_of_no_detent {s : State} {a b : Level} (hmph : s.mph = .idle) (hmode : s.mode ≠ .freeRunning)
    (ha : a = s.eph) : exec (.poll a b) s = .next s :=
  exec_poll_eq_next.mpr ⟨⟨hmph, hmode⟩, .inl ⟨ha, rfl⟩⟩

/-- Inside its guard a poll that sees a detent is `pollDetent`. -/
theorem exec_poll_of_detent {s : State} {a b : Level} (hmph : s.mph = .idle) (hmode : s.mode ≠ .freeRunning)
    (ha : a ≠ s.eph) : exec (.poll a b) s = pollDetent a b s := by
  have hdetent : detent s.eph a = true := bne_iff_ne.mpr ha
  simp only [exec, execPoll, guarded_of_holds _ _ (And.intro hmph hmode), hdetent, if_true]

/-- A detent's next state in full: the adjusted time, its frame, and a transmission about to begin. -/
theorem exec_poll_of_adjustField {s : State} {a b : Level} {u : Nat} (hmph : s.mph = .idle)
    (hmode : s.mode ≠ .freeRunning) (ha : a ≠ s.eph)
    (hu : adjustField s.mode s.ct.toNat (direction a b) = some u) :
    exec (.poll a b) s = .next
      { s with
        ct := BitVec.ofNat 16 u
        fb := transmitWord (encodeFrame u)
        txi := 0
        org := .edit
        mph := .tx
        eph := a } := by
  refine exec_poll_eq_next.mpr ⟨⟨hmph, hmode⟩, .inr ⟨ha, u, hu, ?_⟩⟩
  rw [loadFrame_adjusted .edit s (adjustField_le hu)]

/-- Beyond 43199 a detent has no meaning (R79, R113 (vii)). -/
theorem pollDetent_of_out_of_range {s : State} {a b : Level} (hct : 43200 ≤ s.ct.toNat) :
    pollDetent a b s = .refused .adjustOutOfRange := by
  simp only [pollDetent, adjustField_of_out_of_range hct]

/-- Settles O9: in each edit mode the adjusted time is the adjust function's value, with the move of the field by the
two channels spelled out; the other clauses are the poll without a detent, the guard, and R79's missing value. -/
theorem pollStep : Obligations.PollStep := by
  refine ⟨fun a b => ⟨encodeLabel_poll a b ▸ decodeLabel_encodeLabel (.poll a b), context_poll a b⟩,
    fun s a b => ⟨exec_poll_of_no_detent, fun t' hmph ha hct ht' => ?adjusted, ?guard, ?refused⟩⟩
  case adjusted =>
    have hadjust : s.mode ≠ .freeRunning ∧ adjustField s.mode s.ct.toNat (direction a b) = some t' := by
      obtain ⟨hmode, rfl⟩ | ⟨hmode, rfl⟩ | ⟨hmode, rfl⟩ := ht'
      · rw [hmode, ← moveField_direction 12]
        exact ⟨nofun, adjustHour_eq hct _⟩
      · rw [hmode, ← moveField_direction 60]
        exact ⟨nofun, adjustMinute_eq hct _⟩
      · rw [hmode, ← moveField_direction 60]
        exact ⟨nofun, adjustSecond_eq hct _⟩
    obtain ⟨hmode, hu⟩ := hadjust
    exact ⟨adjustField_le hu, exec_poll_of_adjustField hmph hmode ha hu⟩
  case guard =>
    rintro hfalse ⟨t, h⟩
    obtain ⟨hmph, hmode⟩ : s.mph = .idle ∧ s.mode ≠ .freeRunning := guardHolds_of_exec h
    obtain htx | hfree := hfalse
    · simp [hmph] at htx
    · exact hmode hfree
  case refused =>
    intro hmph hmode ha hct
    exact ⟨_, (exec_poll_of_detent hmph hmode ha).trans (pollDetent_of_out_of_range hct)⟩

/-! ### The clock under edit (R116) -/

/-- TICK aside, outside FreeRunning only a poll with a detent writes `CT`. -/
theorem exec_keeps_ct_of_editing {i : Instr} {s t : State} (hi : i ≠ .tick) (hmode : s.mode ≠ .freeRunning)
    (h : exec i s = .next t) : t.ct = s.ct ∨ ∃ a b, i = .poll a b ∧ a ≠ s.eph := by
  cases i with
  | tick => exact absurd rfl hi
  | button => obtain rfl := exec_button_eq_next.mp h; exact .inl (buttonHandler_ct s)
  | poll a b =>
    obtain ⟨-, ⟨-, rfl⟩ | ⟨ha, -⟩⟩ := exec_poll_eq_next.mp h
    · exact .inl rfl
    · exact .inr ⟨a, b, rfl, ha⟩
  | refresh =>
    obtain ⟨⟨-, hfree, -⟩, -⟩ := exec_refresh_eq_next.mp h
    exact absurd hfree hmode
  | txb => obtain ⟨-, rfl⟩ := exec_txb_eq_next.mp h; exact .inl rfl
  | done => obtain ⟨-, rfl⟩ := exec_done_eq_next.mp h; exact .inl (finishFrame_ct s)

/-- Settles O46: in an edit mode the gating makes TICK's guard false, and `exec_keeps_ct_of_editing` names the only
other writer of `CT`. -/
theorem timeIsFrozenWhileEditing : Obligations.TimeIsFrozenWhileEditing := by
  intro s hgated hmode
  have htick : ¬Enabled .tick s := fun he => hmode (hgated.mp (enabled_tick_iff.mp he))
  refine ⟨htick, fun i t h hct => ?_⟩
  have hi : i ≠ .tick := by
    rintro rfl
    exact htick ⟨t, h⟩
  exact (exec_keeps_ct_of_editing hi hmode h).resolve_left hct

/-! ### Four presses (R115) -/

/-- From `s` to `t` some events were appended, among them one `TICK_DISABLE` for each FreeRunning and one `TICK_ARM`
for each EditSecs in `ms`, the modes that presses have left. -/
def TickEvents (ms : List Mode) (s t : State) : Prop :=
  ∃ es, t.events = s.events ++ es ∧ es.count .tickDisable = ms.count .freeRunning ∧
    es.count .tickArm = ms.count .editSecs

theorem TickEvents.trans {ms ns : List Mode} {s t u : State} (hst : TickEvents ms s t) (htu : TickEvents ns t u) :
    TickEvents (ms ++ ns) s u := by
  obtain ⟨es, hev, hdisable, harm⟩ := hst
  obtain ⟨fs, hev', hdisable', harm'⟩ := htu
  refine ⟨es ++ fs, by rw [hev', hev, List.append_assoc], ?_, ?_⟩
  · rw [List.count_append, List.count_append, hdisable, hdisable']
  · rw [List.count_append, List.count_append, harm, harm']

/-- No event at all. -/
theorem tickEvents_of_events_eq {s t : State} (h : t.events = s.events) : TickEvents [] s t :=
  ⟨[], by simp [h], rfl, rfl⟩

theorem buttonHandler_tickEvents (s : State) : TickEvents [s.mode] s (buttonHandler s) := by
  rw [buttonHandler_of_mode]
  cases s.mode with
  | freeRunning => exact ⟨[.tickDisable], rfl, rfl, rfl⟩
  | editHours => exact ⟨[], (List.append_nil _).symm, rfl, rfl⟩
  | editMins => exact ⟨[], (List.append_nil _).symm, rfl, rfl⟩
  | editSecs => exact ⟨[.tickArm], rfl, rfl, rfl⟩

/-- BUTTON alone emits `TICK_DISABLE` and `TICK_ARM` (R65). -/
theorem exec_tickEvents_of_ne_button {i : Instr} {s t : State} (hi : i ≠ .button) (h : exec i s = .next t) :
    TickEvents [] s t := by
  cases i with
  | tick => obtain ⟨-, rfl⟩ := exec_tick_eq_next.mp h; exact ⟨[.strobe], tickHandler_events s, rfl, rfl⟩
  | button => exact absurd rfl hi
  | poll a b =>
    obtain ⟨-, ⟨-, rfl⟩ | ⟨-, u, -, rfl⟩⟩ := exec_poll_eq_next.mp h
    · exact tickEvents_of_events_eq rfl
    · exact tickEvents_of_events_eq (by simp)
  | refresh => obtain ⟨-, rfl⟩ := exec_refresh_eq_next.mp h; exact tickEvents_of_events_eq (by simp)
  | txb =>
    obtain ⟨-, rfl⟩ := exec_txb_eq_next.mp h
    exact ⟨[.txByte (currentByte s)], emit_txByte_events _ s, rfl, rfl⟩
  | done =>
    obtain ⟨-, rfl⟩ := exec_done_eq_next.mp h
    cases ho : s.org with
    | free =>
      rw [finishFrame_of_free ho]
      exact tickEvents_of_events_eq (setReady_events s)
    | edit =>
      rw [finishFrame_of_edit ho]
      exact ⟨[.strobe], emit_strobe_events s, rfl, rfl⟩

/-- An execution's presses step the mode around its cycle, and the modes they leave fix its tick events, whatever
else is interleaved. By induction on the schedule. -/
theorem execAll_mode_tickEvents {is : List Instr} {s t : State} (h : execAll is s = .next t) :
    t.mode = nextMode^[is.count .button] s.mode ∧
      TickEvents (List.iterate nextMode s.mode (is.count .button)) s t := by
  induction is generalizing s with
  | nil =>
    cases h
    exact ⟨rfl, tickEvents_of_events_eq rfl⟩
  | cons i is ih =>
    obtain ⟨u, hi, his⟩ := execAll_cons_eq_next.mp h
    obtain ⟨hmode, hevents⟩ := ih his
    by_cases hbutton : i = .button
    · subst hbutton
      obtain rfl := exec_button_eq_next.mp hi
      rw [buttonHandler_mode] at hmode hevents
      rw [List.count_cons_self]
      exact ⟨hmode, (buttonHandler_tickEvents s).trans hevents⟩
    · rw [List.count_cons_of_ne hbutton]
      rw [(exec_keeps_ten_mode_of_ne_button hbutton hi).2] at hmode hevents
      exact ⟨hmode, (exec_tickEvents_of_ne_button hbutton hi).trans hevents⟩

/-- The cycle has four modes (R110). -/
theorem nextMode_iterate_four (m : Mode) : nextMode^[4] m = m := by
  cases m <;> rfl

/-- Once around the cycle each of FreeRunning and EditSecs is left exactly once. -/
theorem iterate_nextMode_four_count (m : Mode) :
    (List.iterate nextMode m 4).count .freeRunning = 1 ∧ (List.iterate nextMode m 4).count .editSecs = 1 := by
  cases m <;> decide

/-- Settles O45: four presses go once around the cycle of modes; under the tick gating, which every execution keeps,
the mode determines `TEN`. -/
theorem fourPressesRestoreMode : Obligations.FourPressesRestoreMode := by
  intro is s t hfour h
  obtain ⟨hmode, es, hevents, hdisable, harm⟩ := execAll_mode_tickEvents h
  rw [hfour] at hmode hdisable harm
  rw [nextMode_iterate_four] at hmode
  obtain ⟨hfree, hsecs⟩ := iterate_nextMode_four_count s.mode
  refine ⟨hmode, fun hs => Bool.eq_iff_iff.mpr ?_, es, hevents, hdisable.trans hfree, harm.trans hsecs⟩
  have ht : TickGated t := execAll_keeps (fun _ _ _ => exec_keeps_tickGated) hs h
  calc t.ten = true ↔ t.mode = .freeRunning := ht
    _ ↔ s.mode = .freeRunning := by rw [hmode]
    _ ↔ s.ten = true := hs.symm

/-! ### An edit is shown at once (R117) -/

/-- Before the sixth byte TXB runs, goes on with the transmission and counts. -/
theorem exec_txb_counts {s : State} (hmph : s.mph = .tx) (htxi : s.txi.toNat < 6) :
    ∃ t, exec .txb s = .next t ∧ t.mph = .tx ∧ t.txi.toNat = s.txi.toNat + 1 :=
  ⟨_, exec_txb_eq_next.mpr ⟨⟨hmph, htxi⟩, rfl⟩, hmph, txi_succ_toNat htxi⟩

/-- With room for `n` more bytes, `n` TXB steps run and the transmission goes on. -/
theorem execAll_replicate_txb {n : Nat} {s : State} (hmph : s.mph = .tx) (hroom : s.txi.toNat + n ≤ 6) :
    ∃ t, execAll (List.replicate n .txb) s = .next t ∧ t.mph = .tx ∧ t.txi.toNat = s.txi.toNat + n := by
  induction n generalizing s with
  | zero => exact ⟨s, rfl, hmph, rfl⟩
  | succ n ih =>
    obtain ⟨u, hu, humph, hutxi⟩ := exec_txb_counts hmph (by omega)
    obtain ⟨t, ht, htmph, httxi⟩ := ih humph (by omega)
    exact ⟨t, execAll_cons_eq_next.mpr ⟨u, hu, ht⟩, htmph, by omega⟩

/-- A transmission that has sent nothing runs to its end. -/
theorem execAll_send_done {s : State} (hmph : s.mph = .tx) (htxi : s.txi = 0) :
    ∃ t, execAll (List.replicate 6 .txb ++ [.done]) s = .next t := by
  obtain ⟨t, ht, htmph, httxi⟩ := execAll_replicate_txb (n := 6) hmph (by simp [htxi])
  have hsix : t.txi.toNat = 6 := by simpa [htxi] using httxi
  exact ⟨_, execAll_snoc_eq_next.mpr ⟨t, ht, exec_done_eq_next.mpr ⟨⟨htmph, hsix⟩, rfl⟩⟩⟩

/-- A step within a transmission leaves the frame's origin and, TICK aside, the clock; the index counts the TXB
steps. -/
theorem exec_within_transmission_keeps {i : Instr} {s t : State} (hs : s.mph = .tx) (ht : t.mph = .tx)
    (hi : i ≠ .tick) (h : exec i s = .next t) :
    t.ct = s.ct ∧ t.org = s.org ∧ t.txi.toNat = s.txi.toNat + [i].count .txb := by
  obtain ⟨rfl | rfl | rfl, -⟩ := exec_within_transmission hs ht h
  · obtain ⟨⟨-, hlt⟩, rfl⟩ := exec_txb_eq_next.mp h
    exact ⟨rfl, rfl, txi_succ_toNat hlt⟩
  · exact absurd rfl hi
  · obtain rfl := exec_button_eq_next.mp h
    simp

/-- Where the index still counts all TXB steps since the start of a transmission, that transmission is the one in
flight, so its origin and, without a TICK, the clock have stayed. A later one would have begun after the sixth byte,
with its index at 0. By induction on the schedule from its end. -/
theorem execAll_keeps_ct_org_in_flight {is : List Instr} {s t : State} (hmph : s.mph = .tx) (htxi : s.txi = 0)
    (htick : Instr.tick ∉ is) (hle : is.count .txb ≤ 6) (h : execAll is s = .next t) (ht : t.mph = .tx)
    (hcount : t.txi.toNat = is.count .txb) : t.ct = s.ct ∧ t.org = s.org := by
  induction is using List.reverseRecOn generalizing t with
  | nil =>
    cases h
    exact ⟨rfl, rfl⟩
  | append_singleton is i ih =>
    obtain ⟨u, his, hi⟩ := execAll_snoc_eq_next.mp h
    rw [List.count_append] at hle hcount
    obtain ⟨htick, hne⟩ : Instr.tick ∉ is ∧ Instr.tick ≠ i := by simpa using htick
    cases hu : u.mph with
    | idle =>
      have hzero : is.count .txb = 0 := by
        rw [(exec_begins_transmission hu ht hi).1] at hcount
        exact (Nat.add_eq_zero_iff.mp hcount.symm).1
      obtain ⟨-, hflight⟩ := bytesSent_of_execAll hmph htxi (by omega) his
      obtain ⟨htx, -⟩ := hflight (by omega)
      simp [hu] at htx
    | tx =>
      obtain ⟨hct, horg, hindex⟩ := exec_within_transmission_keeps hu ht hne.symm hi
      obtain ⟨hct', horg'⟩ := ih htick (by omega) his hu (by omega)
      exact ⟨hct.trans hct', horg.trans horg'⟩

/-- DONE of an edit's frame shows what the chain holds (R98). -/
theorem exec_done_of_edit {s t : State} (horg : s.org = .edit) (h : exec .done s = .next t) :
    t.disp = s.sr.extractLsb' 0 44 ∧ t.ct = s.ct ∧ t.mph = .idle := by
  obtain ⟨-, rfl⟩ := exec_done_eq_next.mp h
  rw [finishFrame_of_edit horg]
  exact ⟨rfl, rfl, rfl⟩

/-- A detent begins the transmission of the adjusted time's frame as an edit. -/
theorem exec_poll_begins_edit {s t : State} {a b : Level} (ha : a ≠ s.eph) (h : exec (.poll a b) s = .next t) :
    t.mph = .tx ∧ t.txi = 0 ∧ t.org = .edit ∧ t.fb = transmitWord (encodeFrame t.ct.toNat) := by
  obtain ⟨-, ⟨heph, -⟩ | ⟨-, u, -, rfl⟩⟩ := exec_poll_eq_next.mp h
  · exact absurd heph ha
  · exact ⟨by simp, by simp, by simp, loadFrame_fb_eq_encodeFrame .edit _⟩

/-- Settles O47: DONE's guard says that the index counts the six TXB steps, so the edit's own transmission is the one
that ends; its whole frame is then in the chain (R101), and DONE strobes it. -/
theorem editIsShownAtOnce : Obligations.EditIsShownAtOnce := by
  intro s u a b _ ha hpoll
  obtain ⟨hmph, htxi, horg, hfb⟩ := exec_poll_begins_edit ha hpoll
  refine ⟨execAll_send_done hmph htxi, fun is v w htick hsix his hdone => ?_⟩
  obtain ⟨hvmph, hvtxi⟩ : v.mph = .tx ∧ v.txi.toNat = 6 := guardHolds_of_exec hdone
  obtain ⟨hvct, hvorg⟩ :=
    execAll_keeps_ct_org_in_flight hmph htxi htick hsix.le his hvmph (hvtxi.trans hsix.symm)
  obtain ⟨hdisp, hct, hidle⟩ := exec_done_of_edit (hvorg.trans horg) hdone
  obtain ⟨-, hchain, -⟩ := wholeFrameReachesChain is u v u.ct.toNat hmph htxi hfb hsix his
  exact ⟨hdisp.trans hchain, hct.trans hvct, hidle⟩

end Sys2Proof.Machine
end

section
/-! PROOFS. Tick synchronisation (44_tick_sync.md): the step TICK (R125), the ready flag as a count of refreshes
(R126, R129), the chain invariant under `RefreshBeforeTick` (R128, R130) and the display one second behind (R131). -/

namespace Sys2Proof.Machine

/-! ### TICK (R125) -/

/-- Settles O7: inside the guard the effect is `tickHandler`, spelled out; the guard is `TEN`, which the gating
makes the mode. -/
theorem tickStep : Obligations.TickStep :=
  ⟨decodeLabel_encodeLabel .tick, context_tick, fun _ =>
    ⟨fun hten => exec_tick_eq_next.mpr ⟨hten, rfl⟩,
      fun hten he => absurd (enabled_tick_iff.mp he) (by simp [hten]),
      enabled_tick_iff.trans⟩⟩

/-! ### The refreshes between two ticks (R129) -/

/-- 1 where the current second's REFRESH has been taken, as the state itself records it: its frame is in flight, or
DONE has marked it ready (R126). -/
def refreshTaken (s : State) : Nat := if s.rdy = true ∨ s.mph = .tx ∧ s.org = .free then 1 else 0

theorem refreshTaken_le_one (s : State) : refreshTaken s ≤ 1 := by
  unfold refreshTaken
  split <;> omega

theorem refreshTaken_of_ready {s : State} (hrdy : s.rdy = true) : refreshTaken s = 1 := if_pos (.inl hrdy)

theorem refreshTaken_of_in_flight {s : State} (hmph : s.mph = .tx) (horg : s.org = .free) : refreshTaken s = 1 :=
  if_pos (.inr ⟨hmph, horg⟩)

theorem refreshTaken_of_idle {s : State} (hmph : s.mph = .idle) (hrdy : s.rdy = false) : refreshTaken s = 0 := by
  simp [refreshTaken, hmph, hrdy]

theorem refreshTaken_congr {s t : State} (hrdy : t.rdy = s.rdy) (hmph : t.mph = s.mph) (horg : t.org = s.org) :
    refreshTaken t = refreshTaken s := by
  simp only [refreshTaken, hrdy, hmph, horg]

/-- An edit's frame says nothing about the refresh: `RDY` alone does. -/
theorem refreshTaken_congr_of_edit {s t : State} (hrdy : t.rdy = s.rdy) (hs : s.mph = .idle ∨ s.org = .edit)
    (ht : t.mph = .idle ∨ t.org = .edit) : refreshTaken t = refreshTaken s := by
  have not_in_flight {u : State} (hu : u.mph = .idle ∨ u.org = .edit) : ¬(u.mph = .tx ∧ u.org = .free) := by
    rintro ⟨hmph, horg⟩
    simp [hmph, horg] at hu
  simp only [refreshTaken, hrdy, not_in_flight hs, not_in_flight ht]

/-- A DONE turns a refresh in flight into a ready one, and leaves the flag alone after an edit (R98, R126). -/
theorem exec_done_refreshTaken {s t : State} (h : exec .done s = .next t) : refreshTaken t = refreshTaken s := by
  obtain ⟨⟨hmph, -⟩, rfl⟩ := exec_done_eq_next.mp h
  cases horg : s.org with
  | free =>
    rw [finishFrame_of_free horg, refreshTaken_of_in_flight hmph horg]
    exact refreshTaken_of_ready rfl
  | edit =>
    rw [finishFrame_of_edit horg]
    exact refreshTaken_congr_of_edit rfl (.inr horg) (.inl rfl)

/-- Between ticks the count goes up exactly by REFRESH, whose guard needs it at 0. -/
theorem exec_refreshTaken {i : Instr} {s t : State} (hi : i ≠ .tick) (h : exec i s = .next t) :
    refreshTaken t = refreshTaken s + [i].count .refresh := by
  cases i with
  | tick => exact absurd rfl hi
  | button =>
    obtain rfl := exec_button_eq_next.mp h
    exact refreshTaken_congr (by simp) (by simp) (by simp)
  | poll a b =>
    obtain ⟨⟨hmph, -⟩, ⟨-, rfl⟩ | ⟨-, u, -, rfl⟩⟩ := exec_poll_eq_next.mp h
    · rfl
    · exact refreshTaken_congr_of_edit (by simp) (.inl hmph) (.inr (by simp))
  | refresh =>
    obtain ⟨⟨hmph, -, hrdy⟩, rfl⟩ := exec_refresh_eq_next.mp h
    rw [refreshTaken_of_idle hmph hrdy, refreshTaken_of_in_flight (by simp) (by simp)]
    rfl
  | txb =>
    obtain ⟨-, rfl⟩ := exec_txb_eq_next.mp h
    rfl
  | done => exact exec_done_refreshTaken h

/-- The refreshes of an execution without TICK are what its last state records more than its first. -/
theorem execAll_refreshTaken {is : List Instr} {s t : State} (htick : Instr.tick ∉ is)
    (h : execAll is s = .next t) : refreshTaken t = refreshTaken s + is.count .refresh := by
  induction is generalizing s with
  | nil =>
    cases h
    rfl
  | cons i is ih =>
    obtain ⟨u, hi, his⟩ := execAll_cons_eq_next.mp h
    obtain ⟨hne, htick⟩ : Instr.tick ≠ i ∧ Instr.tick ∉ is := by simpa using htick
    rw [ih htick his, exec_refreshTaken hne.symm hi, ← List.singleton_append (l := is), List.count_append,
      Nat.add_assoc]

/-- A TICK that finds its refresh finished starts a second in which none is taken yet. -/
theorem exec_tick_refreshTaken {s t : State} (hmph : s.mph = .idle) (h : exec .tick s = .next t) :
    refreshTaken t = 0 := by
  obtain ⟨-, rfl⟩ := exec_tick_eq_next.mp h
  exact refreshTaken_of_idle hmph rfl

/-! ### Schedules that meet `RefreshBeforeTick` (R130) -/

theorem refreshBeforeTick_append {is js : List Instr} {s u : State} (his : execAll is s = .next u) :
    RefreshBeforeTick (is ++ js) s ↔ RefreshBeforeTick is s ∧ RefreshBeforeTick js u := by
  induction is generalizing s with
  | nil =>
    cases his
    simp [RefreshBeforeTick]
  | cons i is ih =>
    obtain ⟨v, hi, his⟩ := execAll_cons_eq_next.mp his
    rw [List.cons_append, refreshBeforeTick_cons_of_next hi, refreshBeforeTick_cons_of_next hi, ih his, and_assoc]

/-- A TICK at the end of such a schedule finds the refresh finished. -/
theorem refreshBeforeTick_snoc_tick {is : List Instr} {s u : State} (his : execAll is s = .next u)
    (hpremise : RefreshBeforeTick (is ++ [.tick]) s) :
    RefreshBeforeTick is s ∧ u.mph = .idle ∧ u.rdy = true := by
  obtain ⟨hbefore, hlast, -⟩ := (refreshBeforeTick_append his).mp hpremise
  exact ⟨hbefore, hlast rfl⟩

/-- What every step under the premise keeps, every execution under it keeps. -/
theorem execAll_keeps_of_refreshBeforeTick {P : State → Prop}
    (hstep : ∀ {i s t}, RefreshedAt i s → P s → exec i s = .next t → P t) {is : List Instr} {s t : State}
    (hpremise : RefreshBeforeTick is s) (hs : P s) (h : execAll is s = .next t) : P t := by
  induction is generalizing s with
  | nil =>
    cases h
    exact hs
  | cons i is ih =>
    obtain ⟨u, hi, his⟩ := execAll_cons_eq_next.mp h
    obtain ⟨hat, hrest⟩ := (refreshBeforeTick_cons_of_next hi).mp hpremise
    exact ih hrest (hstep hat hs hi) his

/-- The whole frame of 12:00:00 is in the chain, its DONE is still to come, and the tick is armed: the state after
reset, REFRESH and six TXB, but for the event record. -/
def awaitingDone : State :=
  { State.reset with
    mph := .tx
    txi := 6
    org := .free
    fb := transmitWord (encodeFrame 0)
    sr := transmitWord (encodeFrame 0) }

theorem awaitingDone_stateInv : StateInv awaitingDone :=
  ⟨reset_rangeInv, reset_tickGated, fun _ => ⟨by decide, 0, by decide, rfl⟩⟩

/-- Settles O43: without a TICK the refreshes are the growth of `refreshTaken`, from 0 after a TICK to 1 at the next
one under the premise. A TICK just before DONE leaves the refresh of the old second to count for the new one (R171),
so from `awaitingDone` the next second takes none. -/
theorem atMostOneRefreshPerTick : Obligations.AtMostOneRefreshPerTick := by
  refine ⟨fun is s t htick h => ?_, fun is s t htick hpremise h => ?_,
    [.done], awaitingDone, _, awaitingDone_stateInv, by decide, by decide, rfl, by decide⟩
  · have hgrowth := execAll_refreshTaken htick h
    have hle := refreshTaken_le_one t
    omega
  · obtain ⟨v, hv, -⟩ := execAll_snoc_eq_next.mp h
    obtain ⟨hbefore, -, hready⟩ := refreshBeforeTick_snoc_tick hv hpremise
    obtain ⟨hidle, -⟩ := hbefore.1 rfl
    obtain ⟨u, hu, his⟩ := execAll_cons_eq_next.mp hv
    have hgrowth := execAll_refreshTaken htick his
    rwa [refreshTaken_of_ready hready, exec_tick_refreshTaken hidle hu, Nat.zero_add, eq_comm] at hgrowth

/-! ### The chain invariant (R128) -/

/-- Right after a load no byte has been sent, and the frame in flight is that of the clock. -/
theorem chainInv_of_loaded {s : State} (hmph : s.mph = .tx) (htxi : s.txi = 0)
    (hfb : s.fb = transmitWord (encodeFrame s.ct.toNat)) : ChainInv s := by
  refine ⟨fun hidle => absurd hidle (by simp [hmph]), fun _ => ⟨hfb, ?_⟩⟩
  have := s.fb.isLt
  simp only [SentBytes, htxi, BitVec.ofNat_eq_ofNat, BitVec.toNat_ofNat, Nat.zero_mod, Nat.mul_zero, Nat.pow_zero,
    Nat.mod_one, Nat.sub_zero]
  omega

/-- The invariant does not see the steps that leave the five elements it speaks of. -/
theorem ChainInv.congr {s t : State} (hs : ChainInv s) (hct : t.ct = s.ct) (hrdy : t.rdy = s.rdy)
    (hmph : t.mph = s.mph) (hfb : t.fb = s.fb) (htxi : t.txi = s.txi) (hsr : t.sr = s.sr) : ChainInv t := by
  simpa only [ChainInv, SentBytes, hct, hrdy, hmph, hfb, htxi, hsr] using hs

/-- One more byte of `fb` in the low end of the chain, as numbers: `k` bytes sent become `k + 1`. -/
theorem low_bytes_succ {sr fb k : Nat} (hk : k < 6) (hsent : sr % 2 ^ (8 * k) = fb / 2 ^ (48 - 8 * k)) :
    (sr * 256 + fb / 2 ^ (40 - 8 * k) % 256) % 2 ^ 48 % 2 ^ (8 * (k + 1)) = fb / 2 ^ (48 - 8 * (k + 1)) := by
  interval_cases k <;> simp only [Nat.reduceMul, Nat.reduceSub, Nat.reduceAdd, Nat.reducePow] at hsent ⊢ <;> omega

theorem exec_txb_sentBytes {s t : State} (hsent : SentBytes s) (h : exec .txb s = .next t) : SentBytes t := by
  obtain ⟨⟨-, hlt⟩, rfl⟩ := exec_txb_eq_next.mp h
  simp only [SentBytes, emit_txByte_sr, emit_txByte_fb, shiftIn_toNat, currentByte, frameByte_toNat,
    txi_succ_toNat hlt]
  exact low_bytes_succ hlt hsent

/-- With all six bytes sent the chain is the frame buffer. -/
theorem SentBytes.sr_eq_fb {s : State} (hsent : SentBytes s) (htxi : s.txi.toNat = 6) : s.sr = s.fb := by
  apply BitVec.eq_of_toNat_eq
  have := s.sr.isLt
  simp only [SentBytes, htxi, Nat.reduceMul, Nat.sub_self, Nat.pow_zero, Nat.div_one] at hsent
  omega

/-- Under `RefreshBeforeTick` every step keeps the chain invariant: a load starts it, each TXB carries it on, DONE
finds the whole frame in the chain, and TICK, which moves the clock on, clears `RDY` with nothing in flight. -/
theorem exec_keeps_chainInv {i : Instr} {s t : State} (hat : RefreshedAt i s) (hs : ChainInv s)
    (h : exec i s = .next t) : ChainInv t := by
  cases i with
  | tick =>
    obtain ⟨hidle, -⟩ := hat rfl
    obtain ⟨-, rfl⟩ := exec_tick_eq_next.mp h
    exact ⟨fun _ => nofun, by simp [hidle]⟩
  | button =>
    obtain rfl := exec_button_eq_next.mp h
    exact hs.congr (by simp) (by simp) (by simp) (by simp) (by simp) (by simp)
  | poll a b =>
    obtain ⟨-, ⟨-, rfl⟩ | ⟨ha, -⟩⟩ := exec_poll_eq_next.mp h
    · exact hs
    · obtain ⟨hmph, htxi, -, hfb⟩ := exec_poll_begins_edit ha h
      exact chainInv_of_loaded hmph htxi hfb
  | refresh =>
    obtain ⟨-, rfl⟩ := exec_refresh_eq_next.mp h
    exact chainInv_of_loaded (loadFrame_mph .free s) (loadFrame_txi .free s) (loadFrame_fb_eq_encodeFrame .free s)
  | txb =>
    obtain ⟨⟨hmph, -⟩, ht⟩ := exec_txb_eq_next.mp h
    obtain ⟨hfb, hsent⟩ := hs.2 hmph
    have hsent' : SentBytes t := exec_txb_sentBytes hsent h
    subst ht
    exact ⟨fun hidle => absurd hidle (by simp [hmph]), fun _ => ⟨hfb, hsent'⟩⟩
  | done =>
    obtain ⟨⟨hmph, htxi⟩, rfl⟩ := exec_done_eq_next.mp h
    obtain ⟨hfb, hsent⟩ := hs.2 hmph
    refine ⟨fun _ _ => ?_, nofun⟩
    rw [finishFrame_sr, finishFrame_ct, hsent.sr_eq_fb htxi, hfb, transmitWord_low]

theorem reset_chainInv : ChainInv State.reset := ⟨fun _ => nofun, nofun⟩

/-- Where the chain invariant holds, a TICK that finds its refresh finished shows the second that has just ended. -/
theorem exec_tick_shows_clock {s t : State} (hs : ChainInv s) (hidle : s.mph = .idle) (hready : s.rdy = true)
    (h : exec .tick s = .next t) : t.disp = encodeFrame s.ct.toNat := by
  obtain ⟨-, rfl⟩ := exec_tick_eq_next.mp h
  exact hs.1 hidle hready

/-! ### The clock in FreeRunning (R131, R133) -/

/-- In FreeRunning, in range, only TICK moves the clock. -/
theorem exec_free_running_ct {i : Instr} {s t : State} (hmode : s.mode = .freeRunning) (hs : RangeInv s)
    (h : exec i s = .next t) : t.ct.toNat = (s.ct.toNat + [i].count .tick) % 43200 := by
  have hkept : s.ct.toNat = (s.ct.toNat + 0) % 43200 := (Nat.mod_eq_of_lt (Nat.lt_succ_of_le hs)).symm
  cases i with
  | tick =>
    obtain ⟨-, rfl⟩ := exec_tick_eq_next.mp h
    rw [tickHandler_ct_toNat, tick_eq_mod hs]
    rfl
  | button =>
    obtain rfl := exec_button_eq_next.mp h
    rwa [buttonHandler_ct]
  | poll a b =>
    obtain ⟨⟨-, hedit⟩, -⟩ := exec_poll_eq_next.mp h
    exact absurd hmode hedit
  | refresh =>
    obtain ⟨-, rfl⟩ := exec_refresh_eq_next.mp h
    rwa [loadFrame_ct, clampClock_of_range hs]
  | txb =>
    obtain ⟨-, rfl⟩ := exec_txb_eq_next.mp h
    exact hkept
  | done =>
    obtain ⟨-, rfl⟩ := exec_done_eq_next.mp h
    rwa [finishFrame_ct]

/-- Without a press the clock of a free-running execution counts its ticks. -/
theorem execAll_free_running_ct {is : List Instr} {s t : State} (hmode : s.mode = .freeRunning) (hs : RangeInv s)
    (hbutton : Instr.button ∉ is) (h : execAll is s = .next t) :
    t.ct.toNat = (s.ct.toNat + is.count .tick) % 43200 := by
  induction is generalizing s with
  | nil =>
    cases h
    exact (Nat.mod_eq_of_lt (Nat.lt_succ_of_le hs)).symm
  | cons i is ih =>
    obtain ⟨u, hi, his⟩ := execAll_cons_eq_next.mp h
    obtain ⟨hne, hbutton⟩ : Instr.button ≠ i ∧ Instr.button ∉ is := by simpa using hbutton
    obtain ⟨-, hmode'⟩ := exec_keeps_ten_mode_of_ne_button hne.symm hi
    rw [ih (hmode'.trans hmode) (exec_keeps_rangeInv hs hi) hbutton his, exec_free_running_ct hmode hs hi,
      ← List.singleton_append (l := is), List.count_append, Nat.mod_add_mod, Nat.add_assoc]

/-- Settles O44: the clock counts the ticks, and the last TICK shows what the chain invariant, kept under the premise,
puts into the chain: the frame of the clock before it. -/
theorem displayIsOneTickStale : Obligations.DisplayIsOneTickStale := by
  rintro is t n hbutton hpremise h rfl
  obtain ⟨u, his, htick⟩ := execAll_snoc_eq_next.mp h
  obtain ⟨hbefore, hidle, hready⟩ := refreshBeforeTick_snoc_tick his hpremise
  have hchain : ChainInv u := execAll_keeps_of_refreshBeforeTick exec_keeps_chainInv hbefore reset_chainInv his
  have hct {js : List Instr} {v : State} (hjs : Instr.button ∉ js) (hv : execAll js State.reset = .next v) :
      v.ct.toNat = js.count .tick % 43200 := by
    simpa [State.reset] using execAll_free_running_ct rfl reset_rangeInv hjs hv
  have hprev : (is ++ [Instr.tick]).count .tick - 1 = is.count .tick := by simp
  refine ⟨hct (by simpa using hbutton) h, ?_⟩
  rw [exec_tick_shows_clock hchain hidle hready htick, hct hbutton his, hprev]

end Sys2Proof.Machine
end

section
/-! PROOFS. What every step keeps: the invariants of the state (10_state.md R23 to R25), the chain invariant
(44_tick_sync.md R128), and the state after reset (R27), where they begin. -/

namespace Sys2Proof.Machine

/-! ### The state after reset (R27) -/

/-- Settles O37: the values are those `State.reset` is defined with; TICK's guard `TEN` is 1 and BUTTON has none. -/
theorem resetValues : Obligations.ResetValues :=
  ⟨rfl, rfl, rfl, rfl, rfl, rfl, rfl, rfl, enabled_tick_iff.mpr rfl, enabled_button State.reset⟩

/-- Reset is idle, so nothing is in flight. -/
theorem reset_sequencerInv : SequencerInv State.reset := nofun

/-- Settles O38. -/
theorem resetMeetsInvariants : Obligations.ResetMeetsInvariants :=
  ⟨⟨reset_rangeInv, reset_tickGated, reset_sequencerInv⟩, reset_chainInv⟩

/-! ### The invariants of every step (R23 to R25) -/

/-- A transmission has either just begun, with the frame of a clock in range, or goes on with the same `FB`. -/
theorem exec_keeps_sequencerInv {i : Instr} {s t : State} (hrange : RangeInv s) (hs : SequencerInv s)
    (h : exec i s = .next t) : SequencerInv t := by
  intro ht
  cases hmph : s.mph with
  | idle =>
    obtain ⟨htxi, hfb⟩ := exec_begins_transmission hmph ht h
    exact ⟨by simp [htxi], t.ct.toNat, exec_keeps_rangeInv hrange h, hfb⟩
  | tx =>
    obtain ⟨hle, c, hc, hfb⟩ := hs hmph
    obtain ⟨-, hfb', htxi⟩ := exec_within_transmission hmph ht h
    exact ⟨htxi hle, c, hc, hfb'.trans hfb⟩

theorem exec_keeps_stateInv {i : Instr} {s t : State} (hs : StateInv s) (h : exec i s = .next t) :
    StateInv t := by
  obtain ⟨hrange, hgated, hseq⟩ := hs
  exact ⟨exec_keeps_rangeInv hrange h, exec_keeps_tickGated hgated h, exec_keeps_sequencerInv hrange hseq h⟩

/-- What does not depend on the schedule and every step operation fetched keeps, a step keeps: it runs the operation
it fetched, or was an idle iteration. -/
theorem step_keeps {P : State → Prop} {s t : State} (hsched : ∀ rest, P { s with sched := rest })
    (hexec : ∀ i rest, fetch s = .ok (some i, rest) → P { s with sched := rest } →
      exec i { s with sched := rest } = .next t → P t)
    (h : step s = .next t) : P t := by
  obtain ⟨i, rest, hfetch, hi⟩ | ⟨rest, -, rfl⟩ := step_eq_next h
  · exact hexec i rest hfetch (hsched rest) hi
  · exact hsched rest

/-- Settles O39: none of the three invariants speaks of the schedule, and every step operation keeps them. -/
theorem stepKeepsInvariants : Obligations.StepKeepsInvariants := fun _ _ hs h =>
  step_keeps (fun _ => hs) (fun _ _ _ => exec_keeps_stateInv) h

/-! ### The chain invariant of a step (R128) -/

/-- Settles O42: the premise at the fetched operation is `RefreshedAt`, under which every operation keeps the chain
invariant; a TICK that meets it shows the second that has just ended. -/
theorem stepKeepsChainInvariant : Obligations.StepKeepsChainInvariant := by
  intro s t _ hchain hpremise h
  refine ⟨step_keeps (fun _ => hchain) (fun i rest hfetch hs hi => ?_) h, fun rest hfetch => ?_⟩
  · have hat : RefreshedAt i { s with sched := rest } := by
      rintro rfl
      exact hpremise rest hfetch
    exact exec_keeps_chainInv hat hs hi
  · obtain ⟨hidle, hready⟩ := hpremise rest hfetch
    rw [step_of_fetch_some hfetch] at h
    have hdisp := exec_tick_shows_clock (s := { s with sched := rest }) hchain hidle hready h
    obtain ⟨-, rfl⟩ := exec_tick_eq_next.mp h
    exact ⟨hdisp, tickHandler_ct_toNat _⟩

end Sys2Proof.Machine
end

section
/-! PROOFS. The course of a transmission (42_frame_serializer.md R95, R99): seven main-context steps, whatever
interrupts are taken among them, and its end in every fair run (70_reset_and_hazards.md R179). -/

namespace Sys2Proof.Machine

/-! ### Interrupts and main-context steps within a transmission -/

/-- TICK and BUTTON leave the sequencer where it was (R147). -/
theorem exec_interrupt_keeps_sequencer {i : Instr} {s t : State} (hi : i.context ≠ .main)
    (h : exec i s = .next t) : t.mph = s.mph ∧ t.txi = s.txi ∧ t.fb = s.fb ∧ t.org = s.org := by
  cases i with
  | tick => obtain ⟨-, rfl⟩ := exec_tick_eq_next.mp h; simp
  | button => obtain rfl := exec_button_eq_next.mp h; simp
  | poll | refresh | txb | done => exact absurd rfl hi

/-- Within a transmission a main-context step is the next TXB, or the DONE after the sixth (R43). -/
theorem exec_main_of_tx {i : Instr} {s t : State} (hi : i.context = .main) (hs : s.mph = .tx)
    (h : exec i s = .next t) :
    (s.txi.toNat < 6 ∧ t.mph = .tx ∧ t.txi.toNat = s.txi.toNat + 1 ∧ t.fb = s.fb ∧ t.org = s.org) ∨
      (s.txi.toNat = 6 ∧ t.mph = .idle) := by
  cases i with
  | tick | button => cases hi
  | poll a b =>
    obtain ⟨⟨hidle, -⟩, -⟩ := exec_poll_eq_next.mp h
    simp [hs] at hidle
  | refresh =>
    obtain ⟨⟨hidle, -⟩, -⟩ := exec_refresh_eq_next.mp h
    simp [hs] at hidle
  | txb =>
    obtain ⟨⟨-, hlt⟩, rfl⟩ := exec_txb_eq_next.mp h
    exact .inl ⟨hlt, hs, txi_succ_toNat hlt, rfl, rfl⟩
  | done =>
    obtain ⟨⟨-, hsix⟩, rfl⟩ := exec_done_eq_next.mp h
    exact .inr ⟨hsix, rfl⟩

/-! ### Seven main-context steps (R95) -/

/-- Where `n` main-context steps lead from the start of a transmission in `s`: up to six stay in it with `n` bytes
sent, and the seventh ends it. -/
def TransmissionAfter (s : State) (n : Nat) (t : State) : Prop :=
  (n ≤ 6 → t.mph = .tx ∧ t.txi.toNat = n ∧ t.fb = s.fb ∧ t.org = s.org) ∧ (n = 7 → t.mph = .idle)

theorem transmissionAfter_zero {s : State} (hmph : s.mph = .tx) (htxi : s.txi = 0) : TransmissionAfter s 0 s :=
  ⟨fun _ => ⟨hmph, by simp [htxi], rfl, rfl⟩, nofun⟩

theorem TransmissionAfter.interrupt {i : Instr} {s u t : State} {n : Nat} (hu : TransmissionAfter s n u)
    (hi : i.context ≠ .main) (h : exec i u = .next t) : TransmissionAfter s n t := by
  obtain ⟨hmph, htxi, hfb, horg⟩ := exec_interrupt_keeps_sequencer hi h
  simpa only [TransmissionAfter, hmph, htxi, hfb, horg] using hu

theorem TransmissionAfter.main {i : Instr} {s u t : State} {n : Nat} (hu : TransmissionAfter s n u)
    (hi : i.context = .main) (h : exec i u = .next t) : TransmissionAfter s (n + 1) t := by
  have hflight (hn : n ≤ 6) := exec_main_of_tx hi (hu.1 hn).1 h
  refine ⟨fun hn => ?_, fun hn => ?_⟩
  · obtain ⟨-, htxi, hfb, horg⟩ := hu.1 (by omega)
    obtain ⟨-, hmph, htxi', hfb', horg'⟩ | ⟨hsix, -⟩ := hflight (by omega)
    · exact ⟨hmph, by omega, hfb'.trans hfb, horg'.trans horg⟩
    · omega
  · obtain ⟨-, htxi, -⟩ := hu.1 (by omega)
    obtain ⟨hlt, -⟩ | ⟨-, hidle⟩ := hflight (by omega)
    · omega
    · exact hidle

/-- The main-context steps of a schedule from the start of a transmission, counted. By induction on the schedule from
its end. -/
theorem transmissionAfter_of_execAll {is : List Instr} {s t : State} (hmph : s.mph = .tx) (htxi : s.txi = 0)
    (h : execAll is s = .next t) : TransmissionAfter s (is.countP (fun i => i.context = .main)) t := by
  induction is using List.reverseRecOn generalizing t with
  | nil =>
    cases h
    exact transmissionAfter_zero hmph htxi
  | append_singleton is i ih =>
    obtain ⟨u, his, hi⟩ := execAll_snoc_eq_next.mp h
    rw [List.countP_append, List.countP_singleton]
    by_cases hmain : i.context = .main
    · simpa [hmain] using (ih his).main hmain hi
    · simpa [hmain] using (ih his).interrupt hmain hi

/-- Settles O55: by `transmissionAfter_of_execAll`, which says it for the counted main-context steps. -/
theorem transmissionTakesSevenSteps : Obligations.TransmissionTakesSevenSteps := by
  rintro is s t _ hmph htxi rfl h
  exact transmissionAfter_of_execAll hmph htxi h

/-! ### A started transmission finishes (R99, R179) -/

/-- The first main-context step of a run from state `n` on finds the sequencer as it was in state `n`: only
interrupts came before it. By induction on the distance to a main-context step that is known to come. -/
theorem IsRun.first_main {states : Nat → State} {steps : Nat → Instr} (hrun : IsRun states steps) {n m : Nat}
    (hnm : n ≤ m) (hm : (steps m).context = .main) :
    ∃ k, n ≤ k ∧ (steps k).context = .main ∧ (states k).mph = (states n).mph ∧ (states k).txi = (states n).txi := by
  obtain ⟨d, rfl⟩ := Nat.exists_eq_add_of_le hnm
  clear hnm
  induction d generalizing n with
  | zero => exact ⟨n, le_refl n, hm, rfl, rfl⟩
  | succ d ih =>
    by_cases hn : (steps n).context = .main
    · exact ⟨n, le_refl n, hn, rfl, rfl⟩
    · obtain ⟨hmph, htxi, -⟩ := exec_interrupt_keeps_sequencer hn (hrun n)
      obtain ⟨k, hk, hmain, hkmph, hktxi⟩ := ih (n := n + 1) (by rwa [Nat.add_right_comm])
      exact ⟨k, by omega, hmain, hkmph.trans hmph, hktxi.trans htxi⟩

/-- In the course of a transmission a main-context step is always enabled (R43). -/
theorem exists_main_enabled_of_tx {s : State} (hmph : s.mph = .tx) (htxi : s.txi.toNat ≤ 6) :
    ∃ i : Instr, i.context = .main ∧ Enabled i s := by
  obtain hlt | hsix := Nat.lt_or_eq_of_le htxi
  · exact ⟨.txb, rfl, enabled_txb_iff.mpr ⟨hmph, hlt⟩⟩
  · exact ⟨.done, rfl, enabled_done_iff.mpr ⟨hmph, hsix⟩⟩

/-- Where the main loop makes progress, a transmission in flight is taken on: after some later step one byte more has
been sent, or the transmission has ended. -/
theorem IsRun.transmission_goes_on {states : Nat → State} {steps : Nat → Instr} (hrun : IsRun states steps)
    (hprogress : MainProgress states steps) {n : Nat} (hmph : (states n).mph = .tx)
    (htxi : (states n).txi.toNat ≤ 6) :
    ∃ m, n < m ∧ ((states m).mph = .tx ∧ (states m).txi.toNat = (states n).txi.toNat + 1 ∧
      (states m).txi.toNat ≤ 6 ∨ (states m).mph = .idle) := by
  obtain ⟨m, hnm, hm⟩ := hprogress n (exists_main_enabled_of_tx hmph htxi)
  obtain ⟨k, hnk, hmain, hkmph, hktxi⟩ := hrun.first_main hnm hm
  refine ⟨k + 1, Nat.lt_succ_of_le hnk, ?_⟩
  obtain ⟨hlt, hmph', htxi', -⟩ | ⟨-, hidle⟩ := exec_main_of_tx hmain (hkmph.trans hmph) (hrun k)
  · exact .inl ⟨hmph', htxi'.trans (by rw [hktxi]), by omega⟩
  · exact .inr hidle

/-- A transmission in flight with `r` bytes to go finishes. By induction on `r`. -/
theorem IsRun.transmission_finishes {states : Nat → State} {steps : Nat → Instr} (hrun : IsRun states steps)
    (hprogress : MainProgress states steps) (r : Nat) {n : Nat} (hmph : (states n).mph = .tx)
    (htxi : (states n).txi.toNat + r = 6) : ∃ m, n < m ∧ (states m).mph = .idle := by
  induction r generalizing n with
  | zero =>
    obtain ⟨m, hnm, ⟨-, hcount, hle⟩ | hidle⟩ := hrun.transmission_goes_on hprogress hmph (by omega)
    · omega
    · exact ⟨m, hnm, hidle⟩
  | succ r ih =>
    obtain ⟨m, hnm, ⟨hmph', hcount, -⟩ | hidle⟩ := hrun.transmission_goes_on hprogress hmph (by omega)
    · obtain ⟨l, hml, hidle⟩ := ih hmph' (by omega)
      exact ⟨l, hnm.trans hml, hidle⟩
    · exact ⟨m, hnm, hidle⟩

/-- Settles O56: `MainProgress` alone drives the transmission on, since a TXB is the completed hand-over and so
enabled wherever a byte is to go (R97, R99). -/
theorem startedTransmissionFinishes : Obligations.StartedTransmissionFinishes :=
  fun states _ hrun _ hprogress n hmph htxi =>
    hrun.transmission_finishes hprogress (6 - (states n).txi.toNat) hmph (Nat.add_sub_cancel' htxi)

end Sys2Proof.Machine
end

section
/-! PROOFS. Step labels and schedules (30_encoding.md R59 to R62): the labels' round trip, what a step runs, what it
stops with, and a schedule's bytes as its steps. -/

namespace Sys2Proof.Machine

/-! ### The labels' round trip (R59, R60) -/

theorem decode_encode_append (i : Instr) (rest : List Byte) : decode (encode i ++ rest) = .ok (i, rest) :=
  decode_cons_of_ok (decodeLabel_encodeLabel i)

/-- Whatever bytes decode begin with the label of the step they decode to. -/
theorem eq_encode_append_of_decode {ls rest : List Byte} {i : Instr} (h : decode ls = .ok (i, rest)) :
    ls = encode i ++ rest := by
  cases ls with
  | nil => cases h
  | cons l ls =>
    cases hl : decodeLabel l with
    | error e => simp [decode_cons_of_error hl] at h
    | ok j =>
      rw [decode_cons_of_ok hl] at h
      cases h
      rw [← encodeLabel_of_decodeLabel hl]
      rfl

/-- Settles O3: `decodeLabel_encodeLabel` and `encodeLabel_of_decodeLabel`, with the bytes that follow. -/
theorem labelsRoundTrip : Obligations.LabelsRoundTrip :=
  ⟨fun i rest _ => decode_encode_append i rest, fun _ _ _ => eq_encode_append_of_decode⟩

/-! ### A scheduled label (R9, R59) -/

theorem fetch_of_decode {s : State} {i : Instr} {rest : List Byte} (h : decode s.sched = .ok (i, rest)) :
    fetch s = .ok (some i, rest) := by
  cases hs : s.sched with
  | nil =>
    rw [hs] at h
    cases h
  | cons l ls =>
    rw [hs] at h
    simp only [fetch, hs, h]

theorem step_of_scheduled {s : State} {i : Instr} {rest : List Byte} (h : s.sched = encode i ++ rest) :
    step s = exec i { s with sched := rest } :=
  step_of_fetch_some (fetch_of_decode (h ▸ decode_encode_append i rest))

/-- The table word of a step's label is that label's byte. -/
theorem tableBytes_encodeLabel (i : Instr) : tableBytes 8 (encodeLabel i).toNat = encode i := by
  rw [tableBytes, Nat.mod_eq_of_lt (encodeLabel i).isLt, BitVec.ofNat_toNat, BitVec.setWidth_eq, encode]

/-- Settles O4: the fetch takes the decoded operation and leaves the rest; a placed label stands in front of the
schedule it leaves. -/
theorem stepRunsScheduledLabel : Obligations.StepRunsScheduledLabel := by
  refine ⟨fun _ _ _ h => step_of_fetch_some (fetch_of_decode h), fun _ _ _ _ => step_of_scheduled,
    fun s i _ => ?_⟩
  have hsched : (s.withFetchWord 8 (encodeLabel i).toNat).sched = encode i ++ s.sched := by
    rw [State.withFetchWord, placeLabels_sched, tableBytes_encodeLabel]
  exact step_of_scheduled hsched

/-! ### With nothing scheduled (R43, R102) -/

theorem step_of_mainNext {s : State} {i : Instr} (hquiet : s.sched = []) (h : mainNext s = some i) :
    step s = exec i s := by
  rw [step_of_fetch_some ((fetch_of_quiet hquiet).trans (by rw [h])), withSched_self hquiet]

theorem step_of_mainNext_none {s : State} (hquiet : s.sched = []) (h : mainNext s = none) : step s = .next s := by
  rw [step_of_fetch_none ((fetch_of_quiet hquiet).trans (by rw [h])), withSched_self hquiet]

theorem mainNext_of_free_running {s : State} (hmph : s.mph = .idle) (hmode : s.mode = .freeRunning) :
    mainNext s = if s.rdy then none else some .refresh := by
  simp only [mainNext, hmph, hmode]

/-- In an edit mode the main loop polls, and sees channel A where it was. -/
theorem mainNext_of_editing {s : State} (hmph : s.mph = .idle) (hmode : s.mode ≠ .freeRunning) :
    mainNext s = some (.poll s.eph s.eph) := by
  cases h : s.mode with
  | freeRunning => exact absurd h hmode
  | editHours | editMins | editSecs => simp only [mainNext, hmph, h]

theorem mainNext_of_tx {s : State} (hmph : s.mph = .tx) :
    mainNext s = if s.txi.toNat < 6 then some .txb else if s.txi.toNat = 6 then some .done else none := by
  simp only [mainNext, hmph, Config.frameBytes]

/-- Settles O5: `mainNext` in each phase of the main loop; the poll it takes in an edit mode sees no detent. -/
theorem quietScheduleRunsMainLoop : Obligations.QuietScheduleRunsMainLoop := by
  refine fun s hquiet => ⟨fun hmph hmode hrdy => ?_, fun hmph hmode hrdy => ?_, fun hmph hmode => ?_,
    fun hmph htxi => ?_, fun hmph htxi => ?_⟩
  · exact step_of_mainNext hquiet (by simp [mainNext_of_free_running hmph hmode, hrdy])
  · exact step_of_mainNext_none hquiet (by simp [mainNext_of_free_running hmph hmode, hrdy])
  · exact (step_of_mainNext hquiet (mainNext_of_editing hmph hmode)).trans (exec_poll_of_no_detent hmph hmode rfl)
  · exact step_of_mainNext hquiet (by simp [mainNext_of_tx hmph, htxi])
  · exact step_of_mainNext hquiet (by simp [mainNext_of_tx hmph, htxi])

/-! ### A schedule's bytes (R9, R63) -/

theorem execAll_cons_of_fault {i : Instr} {is : List Instr} {s : State} {f : Fault} (h : exec i s = .fault f) :
    execAll (i :: is) s = .fault f := by
  simp only [execAll, h]

theorem execAll_cons_of_refused {i : Instr} {is : List Instr} {s : State} {q : Refusal}
    (h : exec i s = .refused q) : execAll (i :: is) s = .refused q := by
  simp only [execAll, h]

/-- Settles O6: by induction on the list. Each step takes its own label off; its outcome is that of the operation
under any other schedule (`exec_withSched`), and a stop ends both runs alike. -/
theorem scheduleBytesRunAsSteps : Obligations.ScheduleBytesRunAsSteps := by
  intro is
  induction is with
  | nil =>
    intro s rest h
    exact congrArg _ (withSched_self h).symm
  | cons i is ih =>
    intro s rest h
    have hstep : core.step s = outcomeWithSched (encodeSchedule is ++ rest) (exec i s) :=
      (step_of_scheduled (rest := encodeSchedule is ++ rest) h).trans (exec_withSched i s _)
    have hexec := exec_withSched i s rest
    cases hi : exec i s with
    | next t =>
      rw [hi] at hstep hexec
      rw [List.length_cons, run_succ_of_next core _ hstep, execAll_cons_of_next hexec]
      exact ih { t with sched := encodeSchedule is ++ rest } rest rfl
    | fault f =>
      rw [hi] at hstep hexec
      rw [List.length_cons, run_succ_of_fault core _ hstep, execAll_cons_of_fault hexec]
      rfl
    | refused q =>
      rw [hi] at hstep hexec
      rw [List.length_cons, run_succ_of_refused core _ hstep, execAll_cons_of_refused hexec]
      rfl

/-! ### The names of the stops (R62, R79) -/

theorem exec_tick_of_not_guard {s : State} (h : ¬guardHolds .tick s) : exec .tick s = .fault .tickNotEnabled :=
  guarded_of_not (p := s.ten = true) _ _ h

theorem exec_poll_of_not_guard {s : State} {a b : Level} (h : ¬guardHolds (.poll a b) s) :
    exec (.poll a b) s = .fault .pollNotEnabled :=
  guarded_of_not (p := s.mph = .idle ∧ s.mode ≠ .freeRunning) _ _ h

theorem exec_refresh_of_not_guard {s : State} (h : ¬guardHolds .refresh s) :
    exec .refresh s = .fault .refreshNotEnabled :=
  guarded_of_not (p := s.mph = .idle ∧ s.mode = .freeRunning ∧ s.rdy = false) _ _ h

theorem exec_txb_of_not_guard {s : State} (h : ¬guardHolds .txb s) : exec .txb s = .fault .txbNotEnabled :=
  guarded_of_not (p := s.mph = .tx ∧ s.txi.toNat < 6) _ _ h

theorem exec_done_of_not_guard {s : State} (h : ¬guardHolds .done s) : exec .done s = .fault .doneNotEnabled :=
  guarded_of_not (p := s.mph = .tx ∧ s.txi.toNat = 6) _ _ h

/-- A false guard is a fault, whichever step it is; BUTTON has no guard. -/
theorem exec_fault_of_not_guard {i : Instr} {s : State} (h : ¬guardHolds i s) : ∃ f, exec i s = .fault f := by
  cases i with
  | tick => exact ⟨_, exec_tick_of_not_guard h⟩
  | button => exact absurd trivial h
  | poll a b => exact ⟨_, exec_poll_of_not_guard h⟩
  | refresh => exact ⟨_, exec_refresh_of_not_guard h⟩
  | txb => exact ⟨_, exec_txb_of_not_guard h⟩
  | done => exact ⟨_, exec_done_of_not_guard h⟩

/-- A label taken off the schedule stops the step where its operation faults; the fault is the same without it. -/
theorem step_fault_of_not_guard {i : Instr} {s : State} {rest : List Byte} (hguard : ¬guardHolds i s)
    (h : s.sched = encode i ++ rest) : ∃ f, step s = .fault f := by
  obtain ⟨f, hf⟩ := exec_fault_of_not_guard hguard
  exact ⟨f, by rw [step_of_scheduled h, exec_withSched, hf, outcomeWithSched]⟩

/-- Settles O14: the five named faults, the fault of a scheduled label, and the missing value of a detent beyond
43199. -/
theorem stopsByName : Obligations.StopsByName := fun _ =>
  ⟨exec_tick_of_not_guard, fun _ _ => exec_poll_of_not_guard, exec_refresh_of_not_guard, exec_txb_of_not_guard,
    exec_done_of_not_guard, fun _ _ => step_fault_of_not_guard,
    fun _ _ ⟨hmph, hmode⟩ ha hct => (exec_poll_of_detent hmph hmode ha).trans (pollDetent_of_out_of_range hct)⟩

end Sys2Proof.Machine
end

section
/-! PROOFS. Who may touch what (10_state.md R10, R21, R26): what each step leaves unchanged, and the writers of each
element. -/

namespace Sys2Proof.Machine

/-! ### Frames (R26) -/

/-- Settles O16: the frames of the two handlers. -/
theorem interruptStepsFrame : Obligations.InterruptStepsFrame := by
  refine ⟨fun s t h => ?_, fun s t h => ?_⟩
  · obtain ⟨-, rfl⟩ := exec_tick_eq_next.mp h
    simp
  · obtain rfl := exec_button_eq_next.mp h
    simp

/-- Settles O17: a load clamps `CT` out of range alone; DONE's origin decides between the ready flag and the strobe. -/
theorem serializerStepsFrame : Obligations.SerializerStepsFrame := by
  refine ⟨fun s t h => ?refresh, fun s t h => ?txb, fun s t h => ?done⟩
  case refresh =>
    obtain ⟨-, rfl⟩ := exec_refresh_eq_next.mp h
    simp +contextual [clampClock_of_range]
  case txb =>
    obtain ⟨-, rfl⟩ := exec_txb_eq_next.mp h
    simp
  case done =>
    obtain ⟨-, rfl⟩ := exec_done_eq_next.mp h
    simp +contextual [finishFrame_of_free, finishFrame_of_edit]

/-- Settles O18: a poll either leaves the whole state or loads a frame. -/
theorem pollFrame : Obligations.PollFrame := by
  intro s t a b h
  obtain ⟨-, ⟨-, rfl⟩ | ⟨ha, u, -, rfl⟩⟩ := exec_poll_eq_next.mp h
  · simp
  · simp [ha]

/-! ### Writers (R10, R21) -/

/-- Settles O19: for each step, the elements outside its frame are those the tables name it a writer of. -/
theorem writersOfEachElement : Obligations.WritersOfEachElement := by
  intro i s t h
  cases i with
  | tick =>
    obtain ⟨-, rfl⟩ := exec_tick_eq_next.mp h
    simp
  | button =>
    obtain rfl := exec_button_eq_next.mp h
    simp
  | poll a b =>
    obtain ⟨-, ⟨-, rfl⟩ | ⟨ha, u, -, rfl⟩⟩ := exec_poll_eq_next.mp h
    · simp
    · simp [ha]
  | refresh =>
    obtain ⟨-, rfl⟩ := exec_refresh_eq_next.mp h
    simp +contextual [clampClock_eq]
  | txb =>
    obtain ⟨-, rfl⟩ := exec_txb_eq_next.mp h
    simp
  | done =>
    obtain ⟨-, rfl⟩ := exec_done_eq_next.mp h
    cases horg : s.org with
    | free => simp [finishFrame_of_free, horg]
    | edit => simp [finishFrame_of_edit, horg]

end Sys2Proof.Machine
end

section
/-! PROOFS. The cadence of the clock (44_tick_sync.md R133) and the byte order of a Frame (30_encoding.md R53, R56). -/

namespace Sys2Proof.Machine

/-! ### `n` ticks (R133) -/

/-- While the tick is armed `n` TICK steps run, and each is one `tick` of the clock. -/
theorem execAll_replicate_tick {s : State} (hten : s.ten = true) (n : Nat) :
    ∃ t, execAll (List.replicate n .tick) s = .next t ∧ t.ct.toNat = tick^[n] s.ct.toNat := by
  induction n generalizing s with
  | zero => exact ⟨s, rfl, rfl⟩
  | succ n ih =>
    obtain ⟨t, ht, hct⟩ := ih (s := tickHandler s) hten
    refine ⟨t, execAll_cons_eq_next.mpr ⟨tickHandler s, exec_tick_eq_next.mpr ⟨hten, rfl⟩, ht⟩, ?_⟩
    rw [hct, tickHandler_ct_toNat, Function.iterate_succ_apply]

/-- Settles O30: `n` ticks are one addition modulo 43200, and 43200 of them add a full turn. -/
theorem ticksAdvanceClock : Obligations.TicksAdvanceClock := by
  intro s n hten hct
  obtain ⟨t, ht, htct⟩ := execAll_replicate_tick hten n
  obtain ⟨u, hu, huct⟩ := execAll_replicate_tick hten 43200
  rw [tick_iterate hct] at htct huct
  rw [Nat.add_mod_right, Nat.mod_eq_of_lt (Nat.lt_succ_of_le hct)] at huct
  exact ⟨⟨t, ht, htct⟩, u, hu, BitVec.eq_of_toNat_eq huct⟩

/-! ### The six bytes of a Frame (R53, R56) -/

theorem serialize_length (f : Frame) : (serialize f).length = 6 := by
  rw [serialize, List.length_map, List.length_range]

theorem serialize_getElem? (f : Frame) {k : Nat} (hk : k < 6) :
    (serialize f)[k]? = some (frameByte (transmitWord f) k) := by
  rw [serialize, List.getElem?_map, List.getElem?_range hk, Option.map_some]

/-- Read as one big-endian number, the six bytes are the Frame. -/
theorem serialize_foldl (f : Frame) : (serialize f).foldl (fun acc b => acc * 256 + b.toNat) 0 = f.toNat := by
  have hf := f.isLt
  simp only [serialize, List.range_succ, List.range_zero, List.nil_append, List.cons_append, List.map_cons,
    List.map_nil, List.foldl_cons, List.foldl_nil, frameByte_toNat, transmitWord_toNat]
  omega

/-- Settles O35: the bytes are slices of the transmit word, whose top four bits are the pad. -/
theorem serializeIsBigEndian : Obligations.SerializeIsBigEndian := by
  refine fun f => ⟨serialize_length f, serialize_foldl f,
    fun k hk => ⟨serialize_getElem? f hk, frameByte_toNat _ k⟩, ?_⟩
  have hf := f.isLt
  rw [frameByte_toNat, transmitWord_toNat]
  omega

end Sys2Proof.Machine
end

section
/-! PROOFS. What no step reads: the chain and the display (10_state.md R21), and the frame registers while idle
(R103). -/

namespace Sys2Proof.Machine

/-! ### Outcomes that agree -/

/-- Two outcomes of the same kind: the same stop, or next states that `R` relates. -/
inductive OutcomesAgree (R : State → State → Prop) : Result → Result → Prop where
  | next {t t' : State} (h : R t t') : OutcomesAgree R (.next t) (.next t')
  | fault (f : Fault) : OutcomesAgree R (.fault f) (.fault f)
  | refused (q : Refusal) : OutcomesAgree R (.refused q) (.refused q)

/-- The agreement, outcome by outcome. -/
theorem OutcomesAgree.spelled {R : State → State → Prop} {r r' : Result} (h : OutcomesAgree R r r') :
    (∀ t, r = .next t → ∃ t', r' = .next t' ∧ R t t') ∧ (∀ f, r = .fault f → r' = .fault f) ∧
      (∀ q, r = .refused q → r' = .refused q) := by
  cases h with
  | next h => simpa using h
  | fault f => simp
  | refused q => simp

/-- Under equivalent guards two effects need to agree only where the guard holds. -/
theorem OutcomesAgree.guarded {R : State → State → Prop} {p p' : Prop} [Decidable p] [Decidable p'] {f : Fault}
    {r r' : Result} (hp : p' ↔ p) (h : p → OutcomesAgree R r r') :
    OutcomesAgree R (guarded p f r) (guarded p' f r') := by
  by_cases hguard : p
  · rw [guarded_of_holds f r hguard, guarded_of_holds f r' (hp.mpr hguard)]
    exact h hguard
  · rw [guarded_of_not f r hguard, guarded_of_not f r' (mt hp.mp hguard)]
    exact .fault f

/-- A poll reads `MPH`, `MODE`, `EPH` and `CT`; from two states with the same four it agrees where their states after
no detent and their loaded states do. -/
theorem OutcomesAgree.poll {R : State → State → Prop} {a b : Level} {s s' : State} (hmph : s'.mph = s.mph)
    (hmode : s'.mode = s.mode) (heph : s'.eph = s.eph) (hct : s'.ct = s.ct)
    (hsame : R { s with eph := a } { s' with eph := a })
    (hload : ∀ u, R { loadFrame .edit { s with ct := BitVec.ofNat 16 u } with eph := a }
      { loadFrame .edit { s' with ct := BitVec.ofNat 16 u } with eph := a }) :
    OutcomesAgree R (exec (.poll a b) s) (exec (.poll a b) s') := by
  have hadjust : adjustField s'.mode s'.ct.toNat (direction a b) =
      adjustField s.mode s.ct.toNat (direction a b) := by rw [hmode, hct]
  refine .guarded (by rw [hmph, hmode]) fun _ => ?_
  rw [heph]
  split
  · simp only [pollDetent, hadjust]
    cases adjustField s.mode s.ct.toNat (direction a b) with
    | none => exact .refused _
    | some u => exact .next (hload u)
  · exact .next hsame

/-! ### The chain and the display (R21) -/

/-- The same state but for the chain and the display. -/
def SameButEnv (t t' : State) : Prop := { t' with sr := t.sr, disp := t.disp } = t

theorem loadFrame_sameButEnv (o : Origin) (s : State) (x : TransmitWord) (y : Frame) :
    SameButEnv (loadFrame o s) (loadFrame o { s with sr := x, disp := y }) := by
  rw [loadFrame_eq, loadFrame_eq]
  rfl

theorem buttonHandler_sameButEnv (s : State) (x : TransmitWord) (y : Frame) :
    SameButEnv (buttonHandler s) (buttonHandler { s with sr := x, disp := y }) := by
  rw [buttonHandler_of_mode, buttonHandler_of_mode]
  cases s.mode <;> rfl

theorem finishFrame_sameButEnv (s : State) (x : TransmitWord) (y : Frame) :
    SameButEnv { finishFrame s with mph := .idle }
      { finishFrame { s with sr := x, disp := y } with mph := .idle } := by
  obtain ⟨_, _, _, _, _, _, _, _, org, _, _, _, _⟩ := s
  cases org with
  | free => rfl
  | edit => rfl

/-- Settles O24: no guard is about the chain or the display, and no effect reads them but to write them. -/
theorem environmentIsNotRead : Obligations.EnvironmentIsNotRead := by
  intro i s x y
  suffices OutcomesAgree SameButEnv (exec i s) (exec i { s with sr := x, disp := y }) from this.spelled
  cases i with
  | tick => exact .guarded Iff.rfl fun _ => .next rfl
  | button => exact .next (buttonHandler_sameButEnv s x y)
  | poll a b =>
    refine .poll rfl rfl rfl rfl rfl fun u => ?_
    exact congrArg (fun t : State => { t with eph := a })
      (loadFrame_sameButEnv .edit { s with ct := BitVec.ofNat 16 u } x y)
  | refresh => exact .guarded Iff.rfl fun _ => .next (loadFrame_sameButEnv .free s x y)
  | txb => exact .guarded Iff.rfl fun _ => .next rfl
  | done => exact .guarded Iff.rfl fun _ => .next (finishFrame_sameButEnv s x y)

/-! ### The frame registers while idle (R103) -/

/-- The same state, or an idle one with `w`, `x` and `o` in the frame registers. -/
def SameButIdleFrame (w : TransmitWord) (x : BitVec 3) (o : Origin) (t t' : State) : Prop :=
  t' = t ∨ t.mph = .idle ∧ t' = { t with fb := w, txi := x, org := o }

/-- A load overwrites all three frame registers. -/
theorem loadFrame_overwrites (o o' : Origin) (s : State) (w : TransmitWord) (x : BitVec 3) :
    loadFrame o { s with fb := w, txi := x, org := o' } = loadFrame o s := by
  rw [loadFrame_eq, loadFrame_eq]
  rfl

theorem buttonHandler_withFrame (s : State) (w : TransmitWord) (x : BitVec 3) (o : Origin) :
    buttonHandler { s with fb := w, txi := x, org := o } = { buttonHandler s with fb := w, txi := x, org := o } := by
  rw [buttonHandler_of_mode, buttonHandler_of_mode]
  cases s.mode <;> rfl

/-- Settles O25: while idle the handlers and a poll without a detent leave the frame registers alone, a load overwrites
them, and TXB and DONE, which read them, are not enabled. -/
theorem idleFrameRegistersAreDead : Obligations.IdleFrameRegistersAreDead := by
  intro i s w x o hidle
  suffices OutcomesAgree (SameButIdleFrame w x o) (exec i s) (exec i { s with fb := w, txi := x, org := o }) from
    this.spelled
  have not_tx {p : Prop} : ¬(s.mph = .tx ∧ p) := by simp [hidle]
  cases i with
  | tick => exact .guarded Iff.rfl fun _ => .next (.inr ⟨hidle, rfl⟩)
  | button => exact .next (.inr ⟨(buttonHandler_mph s).trans hidle, buttonHandler_withFrame s w x o⟩)
  | poll a b =>
    refine .poll rfl rfl rfl rfl (.inr ⟨hidle, rfl⟩) fun u => .inl ?_
    rw [loadFrame_overwrites .edit o { s with ct := BitVec.ofNat 16 u }]
  | refresh => exact .guarded Iff.rfl fun _ => .next (.inl (loadFrame_overwrites .free o s w x))
  | txb =>
    rw [exec_txb_of_not_guard not_tx, exec_txb_of_not_guard (s := { s with fb := w, txi := x, org := o }) not_tx]
    exact .fault _
  | done =>
    rw [exec_done_of_not_guard not_tx, exec_done_of_not_guard (s := { s with fb := w, txi := x, org := o }) not_tx]
    exact .fault _

end Sys2Proof.Machine
end

section
/-! PROOFS. Whole schedules (30_encoding.md R64, 60_exceptions.md R146, 70_reset_and_hazards.md R167 to R173): the
bytes of a frame as one state, the pseudo-operations CYCLE, SECOND and DETENT, and a tick or a press among the steps of
a refresh. -/

namespace Sys2Proof.Machine

/-! ### The bytes of a frame (R97, R101) -/

/-- The events of `n` TXB steps from the index `k` of the frame buffer `fb` on. -/
def byteEvents (fb : TransmitWord) (k n : Nat) : List Event :=
  (List.range' k n).map fun j => .txByte (frameByte fb j)

theorem byteEvents_succ (fb : TransmitWord) (k n : Nat) :
    byteEvents fb k (n + 1) = .txByte (frameByte fb k) :: byteEvents fb (k + 1) n := by
  rw [byteEvents, List.range'_succ, List.map_cons, byteEvents]

/-- The six events of a whole frame are those of its serialization (R84). -/
theorem byteEvents_transmitWord (f : Frame) :
    byteEvents (transmitWord f) 0 6 = (serialize f).map .txByte := by
  rw [byteEvents, serialize, List.range_eq_range', List.map_map]
  rfl

/-- With room for them `n` TXB steps run; they write the chain, the index and the record of events alone. -/
theorem execAll_replicate_txb_eq {n : Nat} {s : State} (hmph : s.mph = .tx) (hroom : s.txi.toNat + n ≤ 6) :
    ∃ chain index, execAll (List.replicate n .txb) s = .next
      { s with sr := chain, txi := index, events := s.events ++ byteEvents s.fb s.txi.toNat n } ∧
      index.toNat = s.txi.toNat + n := by
  induction n generalizing s with
  | zero => exact ⟨s.sr, s.txi, by simp [byteEvents], rfl⟩
  | succ n ih =>
    have hlt : s.txi.toNat < 6 := by omega
    have hfirst : exec .txb s = .next { emit (.txByte (currentByte s)) s with txi := s.txi + 1 } :=
      exec_txb_eq_next.mpr ⟨⟨hmph, hlt⟩, rfl⟩
    have hindex := txi_succ_toNat hlt
    obtain ⟨chain, index, hrest, hcount⟩ :=
      ih (s := { emit (.txByte (currentByte s)) s with txi := s.txi + 1 }) hmph (by rw [hindex]; omega)
    refine ⟨chain, index, ?_, by rw [hcount, hindex]; omega⟩
    rw [List.replicate_succ, execAll_cons_of_next hfirst, hrest]
    simp only [emit_txByte_events, emit_txByte_fb, hindex, byteEvents_succ, currentByte, List.append_assoc,
      List.singleton_append]
    rfl

/-- After the sixth byte the chain is the frame buffer. -/
theorem BytesSent.sr_eq_fb {s t : State} (h : BytesSent s 6 t) : t.sr = s.fb :=
  BitVec.eq_of_toNat_eq (h.1.trans (chainAfter_six s.sr s.fb))

/-- The state that SEND leaves (R64): the whole frame is in the chain, and its six bytes are recorded. -/
def frameSent (s : State) : State :=
  { s with sr := s.fb, txi := 6, events := s.events ++ byteEvents s.fb 0 6 }

theorem execAll_sendSteps {s : State} (hmph : s.mph = .tx) (htxi : s.txi = 0) :
    execAll sendSteps s = .next (frameSent s) := by
  obtain ⟨chain, index, h, hindex⟩ := execAll_replicate_txb_eq (n := 6) hmph (by simp [htxi])
  obtain rfl : chain = s.fb := (bytesSent_of_execAll hmph htxi (by decide) h).sr_eq_fb
  obtain rfl : index = 6 := BitVec.eq_of_toNat_eq (by simp [hindex, htxi])
  rw [sendSteps, h, frameSent, htxi]
  rfl

/-- SEND and DONE of a transmission that has just begun. -/
theorem execAll_sendSteps_done {s : State} (hmph : s.mph = .tx) (htxi : s.txi = 0) :
    execAll (sendSteps ++ [.done]) s = .next { finishFrame (frameSent s) with mph := .idle } :=
  execAll_snoc_eq_next.mpr ⟨frameSent s, execAll_sendSteps hmph htxi, exec_done_eq_next.mpr ⟨⟨hmph, rfl⟩, rfl⟩⟩

/-! ### CYCLE and SECOND (R64, R127, R167) -/

/-- The state that CYCLE leaves: the frame of `CT` in the chain, sent and ready. -/
def cycled (s : State) : State :=
  { s with
    rdy := true
    fb := transmitWord (encodeFrame s.ct.toNat)
    txi := 6
    org := .free
    sr := transmitWord (encodeFrame s.ct.toNat)
    events := s.events ++ (serialize (encodeFrame s.ct.toNat)).map .txByte }

theorem execAll_cycle {s : State} (hs : RangeInv s) (hmph : s.mph = .idle) (hmode : s.mode = .freeRunning)
    (hrdy : s.rdy = false) (e : Level) : execAll (expandPseudo e .cycle) s = .next (cycled s) := by
  have hrefresh : exec .refresh s = .next (loadFrame .free s) :=
    exec_refresh_eq_next.mpr ⟨⟨hmph, hmode, hrdy⟩, rfl⟩
  have hsend := execAll_sendSteps_done (loadFrame_mph .free s) (loadFrame_txi .free s)
  change execAll (.refresh :: (sendSteps ++ [.done])) s = _
  rw [execAll_cons_of_next hrefresh, hsend,
    finishFrame_of_free (s := frameSent (loadFrame .free s)) (loadFrame_org .free s), frameSent,
    loadFrame_of_range .free hs, byteEvents_transmitWord, cycled, ← hmph]
  rfl

/-- Settles O48: the TICK strobes the frame that stands in the chain and moves the clock on, and the CYCLE after it
puts the new clock's frame there. -/
theorem freeRunningSecond : Obligations.FreeRunningSecond := by
  intro s ⟨hrange, hgated, _⟩ hmode hmph _ hchain
  have htick : exec .tick s = .next (tickHandler s) := exec_tick_eq_next.mpr ⟨hgated.mpr hmode, rfl⟩
  have hct : (tickHandler s).ct.toNat = (s.ct.toNat + 1) % 43200 := by
    rw [tickHandler_ct_toNat, tick_eq_mod hrange]
  have hcycle := execAll_cycle (exec_keeps_rangeInv hrange htick) hmph hmode rfl s.eph
  exact ⟨cycled (tickHandler s), (execAll_cons_of_next htick).trans hcycle, hct, hchain, rfl, rfl, hmph, hmode, rfl⟩

/-- Settles O49: reset meets the premises of CYCLE, which puts the frame of 12:00:00 into the chain; the TICK after it
strobes that frame. -/
theorem firstSecondFromReset : Obligations.FirstSecondFromReset := by
  have horder := mainContextOrder State.reset reset_rangeInv
  refine ⟨fun i hi => (horder i hi).1 rfl rfl rfl, cycled State.reset, tickHandler (cycled State.reset),
    execAll_cycle reset_rangeInv rfl rfl rfl _, by decide, by decide, rfl, rfl, rfl,
    exec_tick_eq_next.mpr ⟨rfl, rfl⟩, transmitWord_low _, by decide⟩

/-! ### A detent, shown (R64) -/

/-- An adjusted time fits the clock. -/
theorem adjustField_ofNat_toNat {m : Mode} {t u : Nat} {d : Direction} (h : adjustField m t d = some u) :
    (BitVec.ofNat 16 u).toNat = u := by
  have := adjustField_le h
  rw [BitVec.toNat_ofNat]
  omega

/-- The level of channel B for which a detent moves channel A in a given direction. -/
def detentB (e : Level) : Direction → Level
  | .inc => e
  | .dec => !e

theorem direction_detentB (e : Level) (d : Direction) : direction (!e) (detentB e d) = d := by
  cases e <;> cases d <;> rfl

/-- Settles O54: both pseudo-operations are a poll with a detent in their direction, SEND and DONE; the poll adjusts
the field and loads its frame, and DONE strobes it from the chain. -/
theorem detentsAdjustAndShow : Obligations.DetentsAdjustAndShow := by
  intro s p d hct hmode hmph hp
  obtain ⟨u, hu⟩ := adjustField_isSome hmode hct d
  have huct := adjustField_ofNat_toNat hu
  have hsteps : expandPseudo s.eph p = .poll (!s.eph) (detentB s.eph d) :: (sendSteps ++ [.done]) := by
    obtain ⟨rfl, rfl⟩ | ⟨rfl, rfl⟩ := hp <;> rfl
  have hpoll := exec_poll_of_adjustField hmph hmode (Bool.not_ne_self s.eph)
    ((direction_detentB s.eph d).symm ▸ hu)
  rw [hsteps, execAll_cons_of_next hpoll, execAll_sendSteps_done rfl rfl, finishFrame_of_edit rfl]
  refine ⟨_, rfl, hu.trans (congrArg some huct.symm), ?_, rfl, rfl, rfl, rfl⟩
  exact (transmitWord_low _).trans (congrArg encodeFrame huct.symm)

/-! ### A tick during a refresh (R171) -/

/-- The bytes of a refresh's frame with a TICK after the first `j`: all steps run, and the TICK moves the clock on but
leaves the transmission as it was. -/
theorem execAll_bytes_around_tick {s : State} {j : Nat} (hmph : s.mph = .tx) (htxi : s.txi = 0)
    (hten : s.ten = true) (hj : j ≤ 6) :
    ∃ t, execAll (List.replicate j .txb ++ [.tick] ++ List.replicate (6 - j) .txb) s = .next t ∧
      t.mph = .tx ∧ t.txi.toNat = 6 ∧ t.org = s.org ∧ t.mode = s.mode ∧ t.ten = true ∧
      t.ct.toNat = tick s.ct.toNat ∧ t.sr = s.fb := by
  have hzero : s.txi.toNat = 0 := by simp [htxi]
  obtain ⟨chain, index, hbefore, hindex⟩ := execAll_replicate_txb_eq (n := j) hmph (by omega)
  rw [hzero, Nat.zero_add] at hindex
  have hticked := execAll_snoc_eq_next.mpr ⟨_, hbefore, exec_tick_eq_next.mpr ⟨hten, rfl⟩⟩
  obtain ⟨chain', index', hafter, hindex'⟩ := execAll_replicate_txb_eq (n := 6 - j)
    (s := tickHandler { s with sr := chain, txi := index, events := s.events ++ byteEvents s.fb s.txi.toNat j })
    hmph (by simp only [tickHandler_txi]; omega)
  have hall := execAll_append_eq_next.mpr ⟨_, hticked, hafter⟩
  have hcount : (List.replicate j Instr.txb ++ [Instr.tick] ++ List.replicate (6 - j) Instr.txb).count .txb = 6 := by
    simp
    omega
  refine ⟨_, hall, hmph, ?_, rfl, rfl, hten, tickHandler_ct_toNat _, ?_⟩
  · rw [hindex']
    change index.toNat + (6 - j) = 6
    omega
  · exact (hcount ▸ bytesSent_of_execAll hmph htxi hcount.le hall).sr_eq_fb

/-- Settles O50: the TICK moves the clock on under the frame in flight, which DONE then marks ready; ready and idle,
the main loop takes no step, and the next TICK strobes the old second's frame. -/
theorem tickDuringRefreshSkipsOne : Obligations.TickDuringRefreshSkipsOne := by
  intro s j ⟨hrange, hgated, _⟩ hmode hmph hrdy hj
  have hrefresh : exec .refresh s = .next (loadFrame .free s) :=
    exec_refresh_eq_next.mpr ⟨⟨hmph, hmode, hrdy⟩, rfl⟩
  obtain ⟨v, hv, hvmph, hvtxi, hvorg, hvmode, hvten, hvct, hvsr⟩ :=
    execAll_bytes_around_tick (loadFrame_mph .free s) (loadFrame_txi .free s)
      ((loadFrame_ten .free s).trans (hgated.mpr hmode)) hj
  have hdone : exec .done v = .next { setReady v with mph := .idle } :=
    exec_done_eq_next.mpr ⟨⟨hvmph, hvtxi⟩, by rw [finishFrame_of_free (hvorg.trans (loadFrame_org .free s))]⟩
  rw [loadFrame_of_range .free hrange] at hvct hvsr hvmode
  have hframe : v.sr.extractLsb' 0 44 = encodeFrame s.ct.toNat := by rw [hvsr, transmitWord_low]
  have hvrange : RangeInv v := hvct.trans_le (tick_le _)
  refine ⟨{ setReady v with mph := .idle }, _, ?_, rfl, rfl, hvct, hframe, fun i hi => ?_,
    exec_tick_eq_next.mpr ⟨hvten, rfl⟩, hframe, ?_⟩
  · simpa only [List.cons_append, List.nil_append, execAll_cons_of_next hrefresh] using
      execAll_snoc_eq_next.mpr ⟨v, hv, hdone⟩
  · obtain ⟨-, hready, -⟩ := mainContextOrder { setReady v with mph := .idle } hvrange i hi
    exact hready rfl (hvmode.trans hmode) rfl
  · rw [tickHandler_ct_toNat]
    exact congrArg tick hvct

/-! ### A tick or a press among other steps (R146, R169, R173) -/

/-- A press in FreeRunning enters EditHours and disarms the tick (R111). -/
theorem buttonHandler_of_free_running {s : State} (hmode : s.mode = .freeRunning) :
    buttonHandler s = disarmTick { s with mode := .editHours } := by
  rw [buttonHandler_of_mode, hmode]

/-- Settles O51: a press disarms the tick, so a TICK is counted before it and not enabled after it. -/
theorem tickAndButtonInEitherOrder : Obligations.TickAndButtonInEitherOrder := by
  intro s hgated hmode
  have htick : exec .tick s = .next (tickHandler s) := exec_tick_eq_next.mpr ⟨hgated.mpr hmode, rfl⟩
  refine ⟨⟨buttonHandler (tickHandler s), ?_, ?_⟩, buttonHandler s, exec_button_eq_next.mpr rfl, ?_⟩
  · rw [execAll_cons_of_next htick, execAll_cons_of_next (exec_button_eq_next.mpr rfl), execAll_nil]
  · rw [buttonHandler_of_free_running (s := tickHandler s) hmode]
    exact ⟨tickHandler_ct_toNat s, rfl, rfl⟩
  · rw [buttonHandler_of_free_running hmode, enabled_tick_iff]
    exact ⟨rfl, rfl, rfl, rfl, nofun⟩

/-- Settles O52: the press enters EditHours and leaves `EPH` stale, so the poll sees a detent of the hour. -/
theorem stalePhaseAdjustsOnce : Obligations.StalePhaseAdjustsOnce := by
  intro s a b hct hmode hmph ha
  obtain ⟨u, hu⟩ := adjustField_isSome (m := .editHours) nofun hct (direction a b)
  have huct := adjustField_ofNat_toNat hu
  have hbutton : exec .button s = .next (disarmTick { s with mode := .editHours }) :=
    exec_button_eq_next.mpr (buttonHandler_of_free_running hmode)
  have hpoll := exec_poll_of_adjustField (s := disarmTick { s with mode := .editHours }) hmph nofun ha hu
  rw [execAll_cons_of_next hbutton, execAll_cons_of_next hpoll]
  exact ⟨_, rfl, hu.trans (congrArg some huct.symm), rfl, rfl, rfl⟩

/-- Settles O53: REFRESH runs in FreeRunning, where a press writes `MODE` and `TEN` and its event, and a load reads and
writes none of these. -/
theorem buttonCommutesWithRefresh : Obligations.ButtonCommutesWithRefresh := by
  intro s u v w hrefresh hbutton hbutton'
  obtain ⟨⟨-, hmode, -⟩, rfl⟩ := exec_refresh_eq_next.mp hrefresh
  obtain rfl := exec_button_eq_next.mp hbutton
  obtain rfl := exec_button_eq_next.mp hbutton'
  rw [buttonHandler_of_free_running hmode, buttonHandler_of_free_running ((loadFrame_mode .free s).trans hmode),
    loadFrame_eq, loadFrame_eq]
  rfl

end Sys2Proof.Machine
end
